-- ==== Sys2Proof/Word.lean ====
section
/-! DEFINITION. The widths of the BPU's words: command and response words, buffer elements, command fields. -/

namespace Sys2Proof

/-- A command word or a response word: 32 bits, bit 31 the most significant (R7, R62, R80). -/
abbrev Word := BitVec 32

/-- A byte of `ENT`, `PW`, `SALT` or `SEED`, the hash byte or the extracted checksum; bit 7 is the first bit (R7). -/
abbrev Byte := BitVec 8

/-- An element of `IDX`: an 11-bit group, a zero-based position in a wordlist; bit 10 is the first bit (R7, R22). -/
abbrev Index := BitVec 11

/-- The `a` field or the `d` field of a command word: 12 bits, unsigned (R80, R82). -/
abbrev Field := BitVec 12

/-- One output of the keyed hash, and the seed: 64 bytes (R33, R183). -/
abbrev Block := Vector Byte 64

end Sys2Proof
end

