-- ==== Sys2Proof/Syntax.lean ====
section
/-! DEFINITION. The twenty commands of 30_encoding.md R84, one constructor per row of opcode_table.json. -/

namespace Sys2Proof

/-- A command. An address operand is the whole `a` field, a data operand the whole `d` field of the command word
(R80, R81); which bits of a data operand must be zero is `Instr.WellFormed` (R82). Fields that carry no operand in the
command's format are not part of the syntax: a word where one of them is not zero is no command (R83). -/
inductive Instr where
  /-- `NOP`, 0x00, format Z (R101). -/
  | nop
  /-- `CLR`, 0x01, format Z (R100). -/
  | clr
  /-- `RDS`, 0x02, format Z (R102). -/
  | rds
  /-- `SETLEN d`, 0x10, format D: entropy length in bytes (R111). -/
  | setlen (d : Field)
  /-- `SETWC d`, 0x11, format D: word count (R112). -/
  | setwc (d : Field)
  /-- `LDE a, d`, 0x12, format AD: write one entropy byte (R120). -/
  | lde (a d : Field)
  /-- `RDE a`, 0x13, format A: read one entropy byte (R121). -/
  | rde (a : Field)
  /-- `LDH d`, 0x14, format D: write the hash byte (R122). -/
  | ldh (d : Field)
  /-- `LDI a, d`, 0x15, format AD: write one index (R123). -/
  | ldi (a d : Field)
  /-- `RDI a`, 0x16, format A: read one index (R124). -/
  | rdi (a : Field)
  /-- `RDC`, 0x17, format Z: read the extracted checksum bits (R125). -/
  | rdc
  /-- `PACK`, 0x18, format Z (R144). -/
  | pack
  /-- `UNPACK`, 0x19, format Z (R145). -/
  | unpack
  /-- `CHK`, 0x1A, format Z (R146). -/
  | chk
  /-- `KSETP d`, 0x20, format D: set the password length (R160). -/
  | ksetp (d : Field)
  /-- `KSETS d`, 0x21, format D: set the salt length (R161). -/
  | ksets (d : Field)
  /-- `KLDP a, d`, 0x22, format AD: write one password byte (R162). -/
  | kldp (a d : Field)
  /-- `KLDS a, d`, 0x23, format AD: write one salt byte (R163). -/
  | klds (a d : Field)
  /-- `KRUN`, 0x24, format Z: run the derivation (R165). -/
  | krun
  /-- `KRDS a`, 0x25, format A: read one seed byte (R166). -/
  | krds (a : Field)
deriving DecidableEq, Repr

end Sys2Proof
end

