-- ==== Sys2Proof/Decode.lean ====
section
/-! DEFINITION. Decoding a command word (30_encoding.md R80, R81, R90), total and rejecting by name, and the encoder
(R84, R88). -/

namespace Sys2Proof

/-- The opcode, `cw[31:24]` (R80). -/
def opField (cw : Word) : BitVec 8 := cw.extractLsb' 24 8

/-- The address field, `cw[23:12]` (R80). -/
def aField (cw : Word) : Field := cw.extractLsb' 12 12

/-- The data field, `cw[11:0]` (R80). -/
def dField (cw : Word) : Field := cw.extractLsb' 0 12

/-- A byte operand fits: `d[11:8]` is zero (R82 b). -/
def Field.isByte (d : Field) : Bool := d.extractLsb' 8 4 == 0#4

/-- An index operand fits: `d[11]` is zero (R82 c). -/
def Field.isIndex (d : Field) : Bool := d.extractLsb' 11 1 == 0#1

/-- Why a word is no command: each is the cause `IllegalCommand` (R83, R85, R90). -/
inductive IllegalWord where
  /-- The opcode is not one of R84 (R85). -/
  | reservedOpcode
  /-- Format Z or D with `a` not zero (R81, R83). -/
  | addressNotZero
  /-- Format Z or A with `d` not zero (R81, R83). -/
  | dataNotZero
  /-- A byte operand with `d[11:8]` not zero (R82 b, R83). -/
  | byteTooWide
  /-- An index operand with `d[11]` not zero (R82 c, R83). -/
  | indexTooWide
deriving DecidableEq, Repr

/-- What a word decodes to: "exactly one of" a well-formed command and an illegal word (R90). -/
inductive Decoded where
  | command (i : Instr)
  | illegal (why : IllegalWord)
deriving DecidableEq, Repr

/-- Format Z: no operand (R81). -/
def decodeZ (cw : Word) (i : Instr) : Decoded :=
  if aField cw ≠ 0#12 then .illegal .addressNotZero
  else if dField cw ≠ 0#12 then .illegal .dataNotZero
  else .command i

/-- Format D with a length operand: the whole of `d` (R81, R82 d). -/
def decodeD (cw : Word) (mk : Field → Instr) : Decoded :=
  if aField cw ≠ 0#12 then .illegal .addressNotZero else .command (mk (dField cw))

/-- Format D with a byte operand (R81, R82 b). -/
def decodeDByte (cw : Word) (mk : Field → Instr) : Decoded :=
  if aField cw ≠ 0#12 then .illegal .addressNotZero
  else if (dField cw).isByte then .command (mk (dField cw))
  else .illegal .byteTooWide

/-- Format A: an address operand (R81, R82 a). -/
def decodeA (cw : Word) (mk : Field → Instr) : Decoded :=
  if dField cw ≠ 0#12 then .illegal .dataNotZero else .command (mk (aField cw))

/-- Format AD with a byte operand (R81, R82 a, b). -/
def decodeADByte (cw : Word) (mk : Field → Field → Instr) : Decoded :=
  if (dField cw).isByte then .command (mk (aField cw) (dField cw)) else .illegal .byteTooWide

/-- Format AD with an index operand (R81, R82 a, c). -/
def decodeADIndex (cw : Word) (mk : Field → Field → Instr) : Decoded :=
  if (dField cw).isIndex then .command (mk (aField cw) (dField cw)) else .illegal .indexTooWide

/-- Decoding, total on every word (R90). That the KO opcodes are reserved too when `HAS_KO` is false (R86) depends on
the block, not on the word: the KO commands check it when they are performed. -/
def decode (cw : Word) : Decoded :=
  match (opField cw).toNat with
  | 0x00 => decodeZ cw .nop
  | 0x01 => decodeZ cw .clr
  | 0x02 => decodeZ cw .rds
  | 0x10 => decodeD cw .setlen
  | 0x11 => decodeD cw .setwc
  | 0x12 => decodeADByte cw .lde
  | 0x13 => decodeA cw .rde
  | 0x14 => decodeDByte cw .ldh
  | 0x15 => decodeADIndex cw .ldi
  | 0x16 => decodeA cw .rdi
  | 0x17 => decodeZ cw .rdc
  | 0x18 => decodeZ cw .pack
  | 0x19 => decodeZ cw .unpack
  | 0x1A => decodeZ cw .chk
  | 0x20 => decodeD cw .ksetp
  | 0x21 => decodeD cw .ksets
  | 0x22 => decodeADByte cw .kldp
  | 0x23 => decodeADByte cw .klds
  | 0x24 => decodeZ cw .krun
  | 0x25 => decodeA cw .krds
  | _ => .illegal .reservedOpcode

/-- `(op << 24) | (a << 12) | d` (R88): the word with these three fields (R80). -/
def commandWord (op : BitVec 8) (a d : Field) : Word :=
  op.setWidth 32 <<< 24 ||| a.setWidth 32 <<< 12 ||| d.setWidth 32

/-- The encoding of a command: its opcode of R84 and its operands in their fields, the absent operands zero (R88). Of an
ill-formed command it is the word with the same bits, which no command has (R83). -/
def encode : Instr → Word
  | .nop => commandWord 0x00#8 0#12 0#12
  | .clr => commandWord 0x01#8 0#12 0#12
  | .rds => commandWord 0x02#8 0#12 0#12
  | .setlen d => commandWord 0x10#8 0#12 d
  | .setwc d => commandWord 0x11#8 0#12 d
  | .lde a d => commandWord 0x12#8 a d
  | .rde a => commandWord 0x13#8 a 0#12
  | .ldh d => commandWord 0x14#8 0#12 d
  | .ldi a d => commandWord 0x15#8 a d
  | .rdi a => commandWord 0x16#8 a 0#12
  | .rdc => commandWord 0x17#8 0#12 0#12
  | .pack => commandWord 0x18#8 0#12 0#12
  | .unpack => commandWord 0x19#8 0#12 0#12
  | .chk => commandWord 0x1A#8 0#12 0#12
  | .ksetp d => commandWord 0x20#8 0#12 d
  | .ksets d => commandWord 0x21#8 0#12 d
  | .kldp a d => commandWord 0x22#8 a d
  | .klds a d => commandWord 0x23#8 a d
  | .krun => commandWord 0x24#8 0#12 0#12
  | .krds a => commandWord 0x25#8 a 0#12

/-- The command of a decoded word, if it is one. -/
def Decoded.command? : Decoded → Option Instr
  | .command i => some i
  | .illegal _ => none

/-- The word an opcode-table row's `nbits` low bits stand for. Every command is one 32-bit word (R80), so every bit
above `nbits` is zero and the table's numbering is the word's own. -/
def tableWord (nbits w : Nat) : Word := BitVec.ofNat 32 (w % 2 ^ nbits)

/-- The command the decoder reads from a word numbered as opcode_table.json numbers its bits. -/
def decodeTableWord (nbits w : Nat) : Option Instr := (decode (tableWord nbits w)).command?

end Sys2Proof
end

