-- ==== Sys2Proof/Machine/Operands.lean ====
section
/-! DEFINITION. The operand forms (30_encoding.md R82): unsigned, not scaled, not shifted, not extended. -/

namespace Sys2Proof.Machine

/-- An address operand: `a` itself, 0..4095 (R82 a). -/
def addressOperand (a : Field) : Nat := a.toNat

/-- A byte operand: `d[7:0]`; none when `d[11:8]` is not zero (R82 b, R83). -/
def byteOperand (d : Field) : Option Byte := if d.isByte then some (d.extractLsb' 0 8) else none

/-- An index operand: `d[10:0]`; none when `d[11]` is not zero (R82 c, R83). -/
def indexOperand (d : Field) : Option Index := if d.isIndex then some (d.extractLsb' 0 11) else none

/-- A length operand: the whole of `d`, 0..4095 (R82 d). -/
def lengthOperand (d : Field) : Nat := d.toNat

end Sys2Proof.Machine
end

