-- ==== Sys2Proof/Config.lean ====
section
/-! DEFINITION. What an implementation of the BPU fixes (00_scope.md R6): the round count, and the four
parameters the spec leaves open, which have no value in the model. `GROUP` (11) is the width of
`Index`, `SEEDLEN` (64) the size of `Block`, and the legal lengths are the length table (R110). -/

namespace Sys2Proof

/-- The sizes R6 leaves to the implementation: `pwMax`, `saltMax`, bytes in the buffers `PW` and `SALT` (D28). -/
structure BufferSizes where
  pwMax : Nat
  saltMax : Nat
deriving DecidableEq, Repr

/-- The constraint R6 puts on the sizes: `1 ≤ PWMAX ≤ 4095` and `1 ≤ SALTMAX ≤ 4095`. -/
abbrev BufferSizes.wf (z : BufferSizes) : Prop :=
  (1 ≤ z.pwMax ∧ z.pwMax ≤ 4095) ∧ (1 ≤ z.saltMax ∧ z.saltMax ≤ 4095)

/-- The parameters of R6 that are plain data: the sizes, and `hasKo`: the KO unit exists (D25). -/
structure Params extends BufferSizes where
  hasKo : Bool
deriving DecidableEq, Repr

/-- `KROUNDS`: rounds of the key derivation, each one call of `PRF` (R6, R164). -/
abbrev Config.krounds : Nat := 2048

/-- `HAS_KO` (R6, D25), left open: notes/assumptions/1.md. -/
opaque Config.hasKo : Bool

/-- One less than `PWMAX` (R6, D28), left open within R6's range 1..4095: notes/assumptions/1.md. -/
opaque Config.pwMaxPred : Fin 4095

/-- One less than `SALTMAX` (R6, D28), left open within R6's range 1..4095: notes/assumptions/1.md. -/
opaque Config.saltMaxPred : Fin 4095

/-- The parameters of the block as built: any that R6 allows. -/
def Config.params : Params where
  hasKo := Config.hasKo
  pwMax := Config.pwMaxPred.val + 1
  saltMax := Config.saltMaxPred.val + 1

/-- `PRF` (R6, R183, D25): the keyed hash behind the PRF port, from key bytes and message bytes to 64 bytes. A total
function of its two operands and nothing else; which function is left open: notes/assumptions/2.md. -/
opaque Config.prf : List Byte → List Byte → Block

end Sys2Proof
end

