-- ==== Sys2Proof/Machine/State.lean ====
section
/-! DEFINITION. The whole state of the BPU (10_state.md R20), its reset (R37), and the reasons a step could stop. -/

namespace Sys2Proof.Machine

/-- A byte buffer whose size is a parameter (`PW`, `SALT`): the (address, byte) pairs that differ from the reset
contents 0x00 (R37), addresses strictly rising. -/
abbrev Memory := List Host.Cell

/-- What the host does to the block next: a command word on the command port (R180), or the reset input (R220). -/
inductive PortEvent where
  | command (cw : Word)
  | reset
deriving DecidableEq, Repr

/-- The fields of R20 that exist only when `HAS_KO` is true. -/
@[ext]
structure KoState where
  /-- `PWLEN`: number of valid bytes in `PW` (R31). -/
  pwLen : BitVec 12
  /-- `SALTLEN`: number of valid bytes in `SALT` (R31). -/
  saltLen : BitVec 12
  /-- `PW`: the password bytes (R32). -/
  pw : Memory
  /-- `SALT`: the salt bytes (R32). -/
  salt : Memory
  /-- `SEED`: the derived seed (R33). -/
  seed : Block
  /-- `KDONE`: `SEED` holds the derivation of the current `PW` and `SALT` (R33). -/
  kdone : Bool
deriving DecidableEq, Repr

/-- The whole state of the block: exactly the fields of R20. -/
@[ext]
structure BlockState where
  /-- `ENT`: the entropy buffer (R21). -/
  ent : Vector Byte 32
  /-- `IDX`: the index buffer (R22). -/
  idx : Vector Index 24
  /-- `SEL`: the selected row of the length table, 0 = none (R25). -/
  sel : BitVec 3
  /-- `HASH0`: the first byte of the entropy's hash, supplied by the host (R26). -/
  hash0 : Byte
  /-- `CSX`: the checksum bits `UNPACK` extracted, right-aligned (R27). -/
  csx : Byte
  /-- `MATCH`: the result of the last `CHK` (R28). -/
  matched : Bool
  /-- `ERR`: the latched fault cause, 0 = none (R29). -/
  err : BitVec 4
  /-- The KO fields, which exist only when `HAS_KO` is true (R20): none in a block without the KO. No step makes them
  or takes them away, so `HAS_KO` is read here (notes/assumptions/5.md). -/
  ko : Option KoState
deriving DecidableEq, Repr

/-- What the host's `step` acts on: the block's state (R20), and beside it, because `step` has no other argument, the
parameters of the run that R24 and R36 keep out of the block's state, and the responses. `run` (Run.lean) takes them as
arguments, as the spec does. -/
@[ext]
structure State extends BlockState where
  /-- `PWMAX` and `SALTMAX`, parameters of the run (R6, R36), which no step writes: notes/assumptions/1.md. -/
  sizes : BufferSizes
  /-- The host's command list with the reset inputs in it, a parameter of the run (R24, R36, R180, R220): what is still
  to come, oldest first; notes/assumptions/3.md. -/
  input : List PortEvent
  /-- The responses returned so far, newest first (R181): notes/assumptions/4.md. -/
  output : List Word
deriving DecidableEq, Repr

/-- `HAS_KO` (R6): the KO's fields exist. -/
abbrev BlockState.hasKo (b : BlockState) : Bool := b.ko.isSome

/-- Every KO field at its reset value (R37). -/
def KoState.reset : KoState where
  pwLen := 0#12
  saltLen := 0#12
  pw := []
  salt := []
  seed := Vector.replicate 64 0#8
  kdone := false

/-- Every field of R20 at its reset value (R37), in a block with or without the KO. -/
def BlockState.reset (hasKo : Bool) : BlockState where
  ent := Vector.replicate 32 0#8
  idx := Vector.replicate 24 0#11
  sel := 0#3
  hash0 := 0#8
  csx := 0#8
  matched := false
  err := 0#4
  ko := if hasKo then some KoState.reset else none

/-- A block built with the parameters `p` right after reset (R37); nothing presented by the host yet and no response
returned. -/
def State.resetWith (p : Params) : State where
  toBlockState := BlockState.reset p.hasKo
  sizes := p.toBufferSizes
  input := []
  output := []

/-- The block right after reset (R37, R220), whatever its parameters are. -/
def State.reset : State := State.resetWith Config.params

/-- Why the machine stops with a fault. There is no such reason: the block's own faults (R200) are taken as R203 says,
a next state with `ERR` latched, so nothing raises a `Fault`. Safe: no step ends in one. -/
inductive Fault where
deriving DecidableEq, Repr

/-- Why the model refuses an instruction. -/
inductive Refusal where
  /-- Raised by the arm of `exec` of an instruction that has no meaning yet; no arm does now. Safe: the model stops
  where the hardware goes on. -/
  | notModelled (mnemonic : String)
deriving DecidableEq, Repr

end Sys2Proof.Machine
end

