-- ==== Sys2Proof/Machine/Ops.lean ====
section
/-! DEFINITION. The named operations over buffers and registers, the response (50_interfaces.md R181), taking a fault
and returning from the faulted state (60_exceptions.md R203 to R205), and taking what the host presents. -/

namespace Sys2Proof.Machine

/-- `S:a`, one byte of `PW` or `SALT`: an address that is not listed holds 0x00, its reset value (R37). -/
def Memory.read : Memory → Nat → Byte
  | [], _ => 0#8
  | (k, v) :: m, a => if k = a then v else Memory.read m a

/-- `S:a <- b`, one byte of `PW` or `SALT`: keeps the addresses rising and lists no byte that is 0x00. -/
def Memory.write : Memory → Nat → Byte → Memory
  | [], a, b => if b = 0#8 then [] else [(a, b)]
  | (k, v) :: m, a, b =>
    if a < k then (if b = 0#8 then (k, v) :: m else (a, b) :: (k, v) :: m)
    else if a = k then (if b = 0#8 then m else (a, b) :: m)
    else (k, v) :: Memory.write m a b

/-- The canonical form: addresses strictly rising, no entry equal to what an unlisted address reads as. -/
abbrev Memory.wf (m : Memory) : Prop :=
  (m.map Prod.fst).Pairwise (· < ·) ∧ ∀ c ∈ m, c.2 ≠ 0#8

/-- `S[0..n-1]`, the first `n` bytes of a buffer as a sequence (00_scope.md section 5). -/
def Memory.bytes (m : Memory) (n : Nat) : List Byte := (List.range n).map m.read

/-- The response of a command that faulted or was ignored (R181 a). -/
def faultResponse : Word := 0x80000000#32

/-- `resp <- v`: the command returns its one response (R181). -/
def respond (v : Word) (s : State) : State := { s with output := v :: s.output }

/-- `SEL <- v` (R25). -/
def State.setSel (s : State) (v : BitVec 3) : State := { s with sel := v }

/-- `ENT` as a whole (R21). -/
def State.setEnt (s : State) (v : Vector Byte 32) : State := { s with ent := v }

/-- `IDX` as a whole (R22). -/
def State.setIdx (s : State) (v : Vector Index 24) : State := { s with idx := v }

/-- `HASH0 <- v` (R26). -/
def State.setHash0 (s : State) (v : Byte) : State := { s with hash0 := v }

/-- `CSX <- v` (R27). -/
def State.setCsx (s : State) (v : Byte) : State := { s with csx := v }

/-- `MATCH <- v` (R28). -/
def State.setMatched (s : State) (v : Bool) : State := { s with matched := v }

/-- `ERR <- v` (R29). -/
def State.setErr (s : State) (v : BitVec 4) : State := { s with err := v }

/-- The KO's fields as a whole, in a block that has them. -/
def State.setKo (s : State) (k : KoState) : State := { s with ko := some k }

/-- `PWLEN <- v` (R31). -/
def KoState.setPwLen (k : KoState) (v : BitVec 12) : KoState := { k with pwLen := v }

/-- `SALTLEN <- v` (R31). -/
def KoState.setSaltLen (k : KoState) (v : BitVec 12) : KoState := { k with saltLen := v }

/-- `PW` as a whole (R32). -/
def KoState.setPw (k : KoState) (v : Memory) : KoState := { k with pw := v }

/-- `SALT` as a whole (R32). -/
def KoState.setSalt (k : KoState) (v : Memory) : KoState := { k with salt := v }

/-- `SEED` and `KDONE`, which only change together (R33). -/
def KoState.setSeed (k : KoState) (v : Block) (done : Bool) : KoState := { k with seed := v, kdone := done }

/-- The side effect of every command but `KRUN` that writes KO state: `KDONE <- 0` and every byte of `SEED` zero
(R33). -/
def KoState.clearSeed (k : KoState) : KoState := k.setSeed (Vector.replicate 64 0#8) false

/-- What the host still presents, after this command or reset. -/
def State.setInput (s : State) (v : List PortEvent) : State := { s with input := v }

/-- The side effect of every command but `CHK` that writes PU state: `MATCH <- 0` (R28). -/
def State.clearMatch (s : State) : State := s.setMatched false

/-- The effect of `CLR` and of the reset input: every field of R20 to its reset value (R37, R100, R220). -/
def State.clear (s : State) : State := { s with toBlockState := BlockState.reset s.hasKo }

/-- The fault causes (R200). -/
inductive Cause where
  | invalidLength
  | invalidWordCount
  | noLength
  | badAddress
  | illegalCommand
  | kNotDone
  | kLengthRange
deriving DecidableEq, Repr

/-- The code a cause latches in `ERR` (R200). -/
def causeCode : Cause → BitVec 4
  | .invalidLength => 1#4
  | .invalidWordCount => 2#4
  | .noLength => 3#4
  | .badAddress => 4#4
  | .illegalCommand => 5#4
  | .kNotDone => 6#4
  | .kLengthRange => 7#4

/-- `raise c`, the one operation that takes a fault: `ERR` gets the cause's code, the response is 0x80000000, and
nothing else changes (R203). -/
def raise (c : Cause) (s : State) : State := respond faultResponse (s.setErr (causeCode c))

/-- The return from the faulted state, which is a full clear (R205); the response is 0 (R100). -/
def clearAndRespond (s : State) : State := respond 0#32 s.clear

/-- A command the faulted block ignores: no state changes, the response is 0x80000000 (R204). -/
def ignored (s : State) : State := respond faultResponse s

/-- A command other than `RDS` and `CLR`: performed when the block is not faulted, else ignored (R202, R204). -/
def whenLive (s performed : State) : State := if s.err = 0#4 then performed else ignored s

/-- A command of the KO, performed on the KO's fields: illegal in a block without one (R86), after the check for the
faulted block (R202). -/
def whenKo (s : State) (performed : KoState → State) : State :=
  whenLive s (match s.ko with
    | some k => performed k
    | none => raise .illegalCommand s)

/-- A command word that is no command (R83, R85, R90), in a block that may be faulted (R202, R204). -/
def illegalWord (s : State) : State := whenLive s (raise .illegalCommand s)

/-- What the block finds at its ports. -/
inductive Fetched where
  /-- The host presents nothing: the block holds its state (R214, R221). -/
  | idle
  /-- The reset input is applied (R220). -/
  | reset (s : State)
  /-- The host presents a command word (R180). -/
  | command (cw : Word) (s : State)
deriving DecidableEq, Repr

/-- Takes the next thing the host does, in the order the port delivers it (R69, R180). -/
def fetch (s : State) : Fetched :=
  match s.input with
  | [] => .idle
  | .reset :: rest => .reset (s.setInput rest)
  | .command cw :: rest => .command cw (s.setInput rest)

/-- The state with one more command word presented before the others. -/
def State.withCommand (s : State) (cw : Word) : State := s.setInput (.command cw :: s.input)

end Sys2Proof.Machine
end

