-- ==== Sys2Proof/Machine/BufferAccess.lean ====
section
/-! DEFINITION. The commands LDE, RDE, LDH, LDI, RDI, RDC (42_buffer_access.md R120 to R125). -/

namespace Sys2Proof.Machine

/-- A command's data operand, or `IllegalCommand` where a must-be-zero bit of it is set (R83, R202). -/
def withOperand {α : Type} (operand : Option α) (s : State) (performed : α → State) : State :=
  match operand with
  | some v => performed v
  | none => raise .illegalCommand s

/-- A command's address, or `BadAddress` where it is not an address of the command's space (R64). -/
def withAddress (a : Field) (size : Nat) (s : State) (performed : Nat → State) : State :=
  if addressOperand a < size then performed (addressOperand a) else raise .badAddress s

/-- `LDE a, d` (R120). -/
def execLde (a d : Field) (s : State) : Host.Outcome State Fault Refusal :=
  .next (whenLive s (withOperand (byteOperand d) s fun b => withAddress a 32 s fun x =>
    respond 0#32 (s.setEnt (s.ent.setIfInBounds x b)).clearMatch))

/-- `RDE a` (R121). -/
def execRde (a : Field) (s : State) : Host.Outcome State Fault Refusal :=
  .next (whenLive s (withAddress a 32 s fun x => respond ((s.ent.getD x 0#8).setWidth 32) s))

/-- `LDH d` (R122). -/
def execLdh (d : Field) (s : State) : Host.Outcome State Fault Refusal :=
  .next (whenLive s (withOperand (byteOperand d) s fun b => respond 0#32 (s.setHash0 b).clearMatch))

/-- `LDI a, d` (R123). -/
def execLdi (a d : Field) (s : State) : Host.Outcome State Fault Refusal :=
  .next (whenLive s (withOperand (indexOperand d) s fun v => withAddress a 24 s fun x =>
    respond 0#32 (s.setIdx (s.idx.setIfInBounds x v)).clearMatch))

/-- `RDI a` (R124). -/
def execRdi (a : Field) (s : State) : Host.Outcome State Fault Refusal :=
  .next (whenLive s (withAddress a 24 s fun x => respond ((s.idx.getD x 0#11).setWidth 32) s))

/-- `RDC` (R125). -/
def execRdc (s : State) : Host.Outcome State Fault Refusal :=
  .next (whenLive s (respond (s.csx.setWidth 32) s))

end Sys2Proof.Machine
end

