-- ==== Sys2Proof/Machine/Kdf.lean ====
section
/-! DEFINITION. The function `kdf` of the KDF orchestrator over an arbitrary keyed hash (44_kdf_orchestrator.md R164). -/

namespace Sys2Proof.Machine

/-- The bytewise exclusive-or of two 64-byte strings (R113, R164). -/
def xorBlocks (x y : Block) : Block := Vector.ofFn fun k => x[k] ^^^ y[k]

/-- The block number 1, four bytes, most significant first (R63, R164). -/
def blockNumberOne : List Byte := [0x00#8, 0x00#8, 0x00#8, 0x01#8]

/-- The pair (`U`, `T`) after round 1, whose message is the salt and the block number, and after each of `n` rounds
more: `U <- PRF(P, U); T <- T xor U` (R164). -/
def kdfRounds (prf : List Byte → List Byte → Block) (P S : List Byte) : Nat → Block × Block
  | 0 => (prf P (S ++ blockNumberOne), prf P (S ++ blockNumberOne))
  | n + 1 =>
    let UT := kdfRounds prf P S n
    let U := prf P UT.1.toList
    (U, xorBlocks UT.2 U)

/-- `kdf(P, S)`: `KROUNDS` calls of `PRF` in all, round 1 included (R164; notes/assumptions/10.md). Not unfolded by `rfl`
or `decide`, which would run its rounds: unfold it by name. -/
@[irreducible] def kdf (prf : List Byte → List Byte → Block) (P S : List Byte) : Block :=
  (kdfRounds prf P S (Config.krounds - 1)).2

end Sys2Proof.Machine
end

