-- ==== Sys2Proof/Machine/KdfCommands.lean ====
section
/-! DEFINITION. The commands KSETP, KSETS, KLDP, KLDS, KRUN, KRDS (44_kdf_orchestrator.md R160 to R166). -/

namespace Sys2Proof.Machine

/-- `KSETP d` (R160). -/
def execKsetp (d : Field) (s : State) : Host.Outcome State Fault Refusal :=
  .next (whenKo s fun k => if s.sizes.pwMax < lengthOperand d then raise .kLengthRange s
    else respond 0#32 (s.setKo (k.setPwLen d).clearSeed))

/-- `KSETS d` (R161). -/
def execKsets (d : Field) (s : State) : Host.Outcome State Fault Refusal :=
  .next (whenKo s fun k => if s.sizes.saltMax < lengthOperand d then raise .kLengthRange s
    else respond 0#32 (s.setKo (k.setSaltLen d).clearSeed))

/-- `KLDP a, d` (R162). -/
def execKldp (a d : Field) (s : State) : Host.Outcome State Fault Refusal :=
  .next (whenKo s fun k => withOperand (byteOperand d) s fun b => withAddress a s.sizes.pwMax s fun x =>
    respond 0#32 (s.setKo (k.setPw (k.pw.write x b)).clearSeed))

/-- `KLDS a, d` (R163). -/
def execKlds (a d : Field) (s : State) : Host.Outcome State Fault Refusal :=
  .next (whenKo s fun k => withOperand (byteOperand d) s fun b => withAddress a s.sizes.saltMax s fun x =>
    respond 0#32 (s.setKo (k.setSalt (k.salt.write x b)).clearSeed))

/-- The seed of the password and the salt the KO holds: `kdf(PW[0..PWLEN-1], SALT[0..SALTLEN-1])` with the block's own
`PRF` (R34, R165). -/
def derivedSeed (k : KoState) : Block :=
  kdf Config.prf (k.pw.bytes k.pwLen.toNat) (k.salt.bytes k.saltLen.toNat)

/-- `KRUN` (R165): one atomic step (R66). -/
def execKrun (s : State) : Host.Outcome State Fault Refusal :=
  .next (whenKo s fun k => respond 0#32 (s.setKo (k.setSeed (derivedSeed k) true)))

/-- `KRDS a` (R166): the address is checked before `KDONE` (R202). -/
def execKrds (a : Field) (s : State) : Host.Outcome State Fault Refusal :=
  .next (whenKo s fun k => withAddress a 64 s fun x =>
    if k.kdone then respond ((k.seed.getD x 0#8).setWidth 32) s else raise .kNotDone s)

end Sys2Proof.Machine
end

