-- ==== Sys2Proof/Machine/LengthTable.lean ====
section
/-! DEFINITION. The closed length table and its two selections (41_length_select.md R110 to R112). -/

namespace Sys2Proof.Machine

/-- One row of the length table: `L` entropy bytes, `CS` checksum bits, `N` words (R110). -/
structure LengthRow where
  len : Nat
  cs : Nat
  words : Nat
deriving DecidableEq, Repr

/-- The five rows, `SEL` = 1 first (R110). -/
def lengthTable : List LengthRow :=
  [⟨16, 4, 12⟩, ⟨20, 5, 15⟩, ⟨24, 6, 18⟩, ⟨28, 7, 21⟩, ⟨32, 8, 24⟩]

/-- Row `SEL` of the table; none for 0, and for 6 and 7, which never occur (R25, notes/assumptions/6.md). -/
def lengthRow (sel : BitVec 3) : Option LengthRow :=
  match sel.toNat with
  | 0 => none
  | k + 1 => lengthTable[k]?

/-- The row number of an entropy length in bytes (R111). -/
def selOfLength (d : Field) : Option (BitVec 3) :=
  match lengthOperand d with
  | 16 => some 1#3
  | 20 => some 2#3
  | 24 => some 3#3
  | 28 => some 4#3
  | 32 => some 5#3
  | _ => none

/-- The row number of a word count (R112). -/
def selOfWordCount (d : Field) : Option (BitVec 3) :=
  match lengthOperand d with
  | 12 => some 1#3
  | 15 => some 2#3
  | 18 => some 3#3
  | 21 => some 4#3
  | 24 => some 5#3
  | _ => none

end Sys2Proof.Machine
end

