-- ==== Sys2Proof/Machine/LengthSelect.lean ====
section
/-! DEFINITION. The commands SETLEN, SETWC (41_length_select.md R111, R112). -/

namespace Sys2Proof.Machine

/-- Writes the row a length operand selects, or raises the cause of an operand that selects none. -/
def selectRow (row : Option (BitVec 3)) (c : Cause) (s : State) : State :=
  match row with
  | some v => respond 0#32 (s.setSel v).clearMatch
  | none => raise c s

/-- `SETLEN d` (R111). -/
def execSetlen (d : Field) (s : State) : Host.Outcome State Fault Refusal :=
  .next (whenLive s (selectRow (selOfLength d) .invalidLength s))

/-- `SETWC d` (R112). -/
def execSetwc (d : Field) (s : State) : Host.Outcome State Fault Refusal :=
  .next (whenLive s (selectRow (selOfWordCount d) .invalidWordCount s))

end Sys2Proof.Machine
end

