-- ==== Sys2Proof/Machine/Flags.lean ====
section
/-! DEFINITION. The computation of `MATCH` (43_pack_unpack.md R146) and the `STATUS` word (10_state.md R30). -/

namespace Sys2Proof.Machine

/-- The checksum bits of a hash byte, its top `CS` bits as an integer: `h >> (8 - CS)` (R142, R146). -/
def hashBits (cs : Nat) (h : Byte) : Byte := h >>> (8 - cs)

/-- What `CHK` computes for `MATCH` (R146). -/
def checksumMatches (r : LengthRow) (s : State) : Bool := s.csx == hashBits r.cs s.hash0

/-- A one-bit flag as a word. -/
def flagWord (b : Bool) : Word := (BitVec.ofBool b).setWidth 32

/-- `STATUS`: `SEL | MATCH << 3 | KDONE << 4 | HASKO << 5 | ERR << 8`, with `KDONE` taken as 0 in a block without the
KO (R30, R102). -/
def statusWord (s : State) : Word :=
  s.sel.setWidth 32 ||| flagWord s.matched <<< 3 ||| flagWord (s.ko.any (·.kdone)) <<< 4
    ||| flagWord s.hasKo <<< 5 ||| s.err.setWidth 32 <<< 8

end Sys2Proof.Machine
end

