-- ==== Sys2Proof/Machine/Bits.lean ====
section
/-! DEFINITION. Bit strings, first bit the most significant (00_scope.md R7), and buffer helpers. -/

namespace Sys2Proof.Machine

/-- The first `w` bits of the bit string `f` as a number: the sum of `f p * 2^(w-1-p)` (R7). -/
def bitField : (w : Nat) → (Nat → Bool) → BitVec w
  | 0, _ => 0#0
  | w + 1, f => (bitField w f).concat (f w)

/-- `buf` with its first elements replaced by those of `xs`, as many as fit. -/
def storeFirst {α : Type} {n : Nat} (buf : Vector α n) (xs : List α) : Vector α n :=
  ⟨(xs.take n ++ buf.toList.drop xs.length).toArray, by simp; omega⟩

end Sys2Proof.Machine
end

