-- ==== Sys2Proof/Machine/Packer.lean ====
section
/-! DEFINITION. The functions `pack` and `unpack` (43_pack_unpack.md R140, R141), bit by bit as the spec defines them. -/

namespace Sys2Proof.Machine

/-- Bit `p` of the string `B` of `pack`: the entropy's bits, then the hash byte's (R61 a, b; R140). -/
def packStream (r : LengthRow) (E : List Byte) (h : Byte) (p : Nat) : Bool :=
  if p < 8 * r.len then (E.getD (p / 8) 0#8).getLsbD (7 - p % 8) else h.getLsbD (7 - (p - 8 * r.len))

/-- `pack(L, E, h)`: `N` indices, index `j` from bits `11j .. 11j+10` of the string (R61 c, R140). -/
def pack (r : LengthRow) (E : List Byte) (h : Byte) : List Index :=
  (List.range r.words).map fun j => bitField 11 fun t => packStream r E h (11 * j + t)

/-- Bit `q` of the string `B` of `unpack` (R141). -/
def unpackStream (I : List Index) (q : Nat) : Bool := (I.getD (q / 11) 0#11).getLsbD (10 - q % 11)

/-- The entropy `unpack(N, I)` returns: `L` bytes (R141). -/
def unpackEntropy (r : LengthRow) (I : List Index) : List Byte :=
  (List.range r.len).map fun i => bitField 8 fun u => unpackStream I (8 * i + u)

/-- The checksum bits `unpack(N, I)` returns, an integer of `CS` bits, zero-extended to a byte (R141, R145). -/
def unpackChecksum (r : LengthRow) (I : List Index) : Byte :=
  (bitField r.cs fun k => unpackStream I (8 * r.len + k)).setWidth 8

end Sys2Proof.Machine
end

