-- ==== Sys2Proof/Machine/PackUnpack.lean ====
section
/-! DEFINITION. The commands PACK, UNPACK, CHK (43_pack_unpack.md R144 to R146). -/

namespace Sys2Proof.Machine

/-- A command that needs a selected length, or `NoLength` where `SEL` selects no row (R144 to R146). -/
def withLength (s : State) (performed : LengthRow → State) : State :=
  match lengthRow s.sel with
  | some r => performed r
  | none => raise .noLength s

/-- `PACK` (R144). -/
def execPack (s : State) : Host.Outcome State Fault Refusal :=
  .next (whenLive s (withLength s fun r =>
    respond 0#32 (s.setIdx (storeFirst s.idx (pack r (s.ent.toList.take r.len) s.hash0))).clearMatch))

/-- `UNPACK` (R145). -/
def execUnpack (s : State) : Host.Outcome State Fault Refusal :=
  .next (whenLive s (withLength s fun r =>
    let I := s.idx.toList.take r.words
    respond 0#32 ((s.setEnt (storeFirst s.ent (unpackEntropy r I))).setCsx (unpackChecksum r I)).clearMatch))

/-- `CHK` (R146): a mismatch is an answer, not a fault. -/
def execChk (s : State) : Host.Outcome State Fault Refusal :=
  .next (whenLive s (withLength s fun r =>
    respond (flagWord (checksumMatches r s)) (s.setMatched (checksumMatches r s))))

end Sys2Proof.Machine
end

