-- ==== Sys2Proof/Machine/System.lean ====
section
/-! DEFINITION. The block commands CLR, NOP, RDS (40_system_commands.md R100 to R102). -/

namespace Sys2Proof.Machine

/-- `NOP` (R101): response 0, nothing else; ignored by a faulted block. -/
def execNop (s : State) : Host.Outcome State Fault Refusal := .next (whenLive s (respond 0#32 s))

/-- `CLR` (R100): every field of R20 to its reset value, also in a faulted block (R204, R205). -/
def execClr (s : State) : Host.Outcome State Fault Refusal := .next (clearAndRespond s)

/-- `RDS` (R102): response `STATUS`, also in a faulted block (R204). -/
def execRds (s : State) : Host.Outcome State Fault Refusal := .next (respond (statusWord s) s)

end Sys2Proof.Machine
end

