-- ==== Sys2Proof/Machine/Dispatch.lean ====
section
/-! DEFINITION. One arm per command. -/

namespace Sys2Proof.Machine

/-- Performs a command (30_encoding.md R84, R90). -/
def exec (i : Instr) (s : State) : Host.Outcome State Fault Refusal :=
  match i with
  | .nop => Sys2Proof.Machine.execNop s
  | .clr => Sys2Proof.Machine.execClr s
  | .rds => Sys2Proof.Machine.execRds s
  | .setlen d => Sys2Proof.Machine.execSetlen d s
  | .setwc d => Sys2Proof.Machine.execSetwc d s
  | .lde a d => Sys2Proof.Machine.execLde a d s
  | .rde a => Sys2Proof.Machine.execRde a s
  | .ldh d => Sys2Proof.Machine.execLdh d s
  | .ldi a d => Sys2Proof.Machine.execLdi a d s
  | .rdi a => Sys2Proof.Machine.execRdi a s
  | .rdc => Sys2Proof.Machine.execRdc s
  | .pack => Sys2Proof.Machine.execPack s
  | .unpack => Sys2Proof.Machine.execUnpack s
  | .chk => Sys2Proof.Machine.execChk s
  | .ksetp d => Sys2Proof.Machine.execKsetp d s
  | .ksets d => Sys2Proof.Machine.execKsets d s
  | .kldp a d => Sys2Proof.Machine.execKldp a d s
  | .klds a d => Sys2Proof.Machine.execKlds a d s
  | .krun => Sys2Proof.Machine.execKrun s
  | .krds a => Sys2Proof.Machine.execKrds a s

end Sys2Proof.Machine
end

