-- ==== Sys2Proof/Machine/Step.lean ====
section
/-! DEFINITION. One step of the block: what the host does next (50_interfaces.md R180, R189; 70_reset_and_hazards.md
R220). -/

namespace Sys2Proof.Machine

/-- One step. A command word that is a command is performed (R90); one that is not is illegal (R83, R85); the reset
input clears the block (R220); a block to which nothing is presented holds its state (R214, R221). -/
def step (s : State) : Host.Outcome State Fault Refusal :=
  match fetch s with
  | .idle => .next s
  | .reset t => .next t.clear
  | .command cw t =>
    match decode cw with
    | .command i => exec i t
    | .illegal _ => .next (illegalWord t)

/-- `s` with the command word of an opcode-table row presented next. -/
def State.withFetchWord (s : State) (nbits w : Nat) : State := s.withCommand (tableWord nbits w)

end Sys2Proof.Machine
end

