-- ==== Sys2Proof/WellFormed.lean ====
section
/-! DEFINITION. Which operands fit a command (30_encoding.md R82, R88): what the assembler refuses and what the encoder
turns into a word with a must-be-zero bit set. -/

namespace Sys2Proof

/-- Every operand of the command fits its field as R82 defines it. Addresses (R82 a) and lengths (R82 d) use all twelve
bits, so they always fit; whether they are in range is checked when the command is performed. -/
def Instr.wellFormed : Instr → Bool
  | .nop => true
  | .clr => true
  | .rds => true
  | .setlen _ => true
  | .setwc _ => true
  | .lde _ d => d.isByte
  | .rde _ => true
  | .ldh d => d.isByte
  | .ldi _ d => d.isIndex
  | .rdi _ => true
  | .rdc => true
  | .pack => true
  | .unpack => true
  | .chk => true
  | .ksetp _ => true
  | .ksets _ => true
  | .kldp _ d => d.isByte
  | .klds _ d => d.isByte
  | .krun => true
  | .krds _ => true

/-- A command the assembler accepts (R88). -/
abbrev Instr.WellFormed (i : Instr) : Prop := i.wellFormed = true

end Sys2Proof
end

