-- ==== Sys2Proof/Machine/Assembler.lean ====
section
/-! DEFINITION. The assembler: the text form of a command (30_encoding.md R88) and the pseudo-instructions (R89). -/

namespace Sys2Proof.Machine

/-- The pseudo-instructions (R89), their operands already read. -/
inductive Pseudo where
  /-- `LDENT h`: load entropy bytes. -/
  | ldent (bytes : List Byte)
  /-- `LDIDX v_0, v_1, ...`: load indices. -/
  | ldidx (indices : List Index)
  /-- `RDENT k`: read entropy bytes. -/
  | rdent (k : Nat)
  /-- `RDIDX k`: read indices. -/
  | rdidx (k : Nat)
  /-- `KLDPW h`: set the password length and load the password. -/
  | kldpw (bytes : List Byte)
  /-- `KLDSALT h`: set the salt length and load the salt. -/
  | kldsalt (bytes : List Byte)
  /-- `KRDSEED`: read the seed. -/
  | krdseed
deriving DecidableEq, Repr

/-- The number of operands R89 allows. For `RDENT` and `RDIDX` it states none: the addresses must fit their field (R82 a;
notes/assumptions/13.md). -/
def Pseudo.accepted (z : BufferSizes) : Pseudo → Bool
  | .ldent bytes => 1 ≤ bytes.length && bytes.length ≤ 32
  | .ldidx indices => 1 ≤ indices.length && indices.length ≤ 24
  | .rdent k => k ≤ 4096
  | .rdidx k => k ≤ 4096
  | .kldpw bytes => bytes.length ≤ z.pwMax
  | .kldsalt bytes => bytes.length ≤ z.saltMax
  | .krdseed => true

/-- `mk i v_i` for the operands in order, addresses from `i` up (R89). -/
def loadFrom (mk : Field → Field → Instr) : Nat → List Field → List Instr
  | _, [] => []
  | i, v :: vs => mk (BitVec.ofNat 12 i) v :: loadFrom mk (i + 1) vs

/-- `mk i` for `i = 0..k-1` (R89). -/
def readFirst (mk : Field → Instr) (k : Nat) : List Instr := (List.range k).map fun i => mk (BitVec.ofNat 12 i)

/-- The commands a pseudo-instruction expands to, "in the listed order and to nothing else" (R89). -/
def Pseudo.expand : Pseudo → List Instr
  | .ldent bytes => loadFrom .lde 0 (bytes.map (BitVec.setWidth 12))
  | .ldidx indices => loadFrom .ldi 0 (indices.map (BitVec.setWidth 12))
  | .rdent k => readFirst .rde k
  | .rdidx k => readFirst .rdi k
  | .kldpw bytes => .ksetp (BitVec.ofNat 12 bytes.length) :: loadFrom .kldp 0 (bytes.map (BitVec.setWidth 12))
  | .kldsalt bytes => .ksets (BitVec.ofNat 12 bytes.length) :: loadFrom .klds 0 (bytes.map (BitVec.setWidth 12))
  | .krdseed => readFirst .krds 64

/-! ## Reading the text -/

/-- The value of a decimal digit. -/
def decimalDigit (c : Char) : Option Nat :=
  if '0'.toNat ≤ c.toNat ∧ c.toNat ≤ '9'.toNat then some (c.toNat - '0'.toNat) else none

/-- The value of a hexadecimal digit, in either case (notes/assumptions/13.md). -/
def hexDigit (c : Char) : Option Nat :=
  if 'a'.toNat ≤ c.toNat ∧ c.toNat ≤ 'f'.toNat then some (c.toNat - 'a'.toNat + 10)
  else if 'A'.toNat ≤ c.toNat ∧ c.toNat ≤ 'F'.toNat then some (c.toNat - 'A'.toNat + 10)
  else decimalDigit c

/-- The number a string of digits denotes, the first digit the most significant; `n` is what stands before them. -/
def digitString (digit : Char → Option Nat) (base : Nat) : Nat → List Char → Option Nat
  | n, [] => some n
  | n, c :: cs => (digit c).bind fun v => digitString digit base (base * n + v) cs

/-- "A number is decimal, or hexadecimal with `0x`" (R88). -/
def number : List Char → Option Nat
  | [] => none
  | '0' :: 'x' :: c :: cs => digitString hexDigit 16 0 (c :: cs)
  | c :: cs => digitString decimalDigit 10 0 (c :: cs)

/-- A number that fits a field (R82). -/
def fieldNumber (t : List Char) : Option Field :=
  (number t).bind fun n => if n < 4096 then some (BitVec.ofNat 12 n) else none

/-- A number 0..2047 (R89). -/
def indexNumber (t : List Char) : Option Index :=
  (number t).bind fun n => if n < 2048 then some (BitVec.ofNat 11 n) else none

/-- A string of `2k` hexadecimal digits: byte `i` is written by digits `2i` and `2i+1` (R89). -/
def byteString : List Char → Option (List Byte)
  | [] => some []
  | [_] => none
  | c :: d :: cs =>
    (hexDigit c).bind fun hi => (hexDigit d).bind fun lo =>
      (byteString cs).map fun bs => BitVec.ofNat 8 (16 * hi + lo) :: bs

/-- A space, a tab or a carriage return: DESIGN CHOICE (notes/assumptions/13.md). -/
def isBlank (c : Char) : Bool := c == ' ' || c == '\t' || c == '\r'

/-- Without the blanks around it. -/
def trim (t : List Char) : List Char := ((t.dropWhile isBlank).reverse.dropWhile isBlank).reverse

/-- The parts of a text between the separators: one more than there are separators. -/
def splitAtChar (sep : Char) : List Char → List (List Char)
  | [] => [[]]
  | c :: cs =>
    match splitAtChar sep cs with
    | [] => []
    | part :: parts => if c = sep then [] :: part :: parts else (c :: part) :: parts

/-- A line without its comment: "`;` starts a comment" (R88). -/
def withoutComment (line : List Char) : List Char := trim (line.takeWhile (· != ';'))

/-- The mnemonic of a line without its comment. -/
def mnemonicText (t : List Char) : List Char := t.takeWhile fun c => !isBlank c

/-- Its operands, "separated by a comma" (R88). -/
def operandTexts (t : List Char) : List (List Char) :=
  match trim (t.dropWhile fun c => !isBlank c) with
  | [] => []
  | c :: cs => (splitAtChar ',' (c :: cs)).map trim

/-- A command from its mnemonic and its operands, the address first (R88). -/
def commandOf (mnemonic : String) (operands : List Field) : Option Instr :=
  match mnemonic, operands with
  | "NOP", [] => some .nop
  | "CLR", [] => some .clr
  | "RDS", [] => some .rds
  | "SETLEN", [d] => some (.setlen d)
  | "SETWC", [d] => some (.setwc d)
  | "LDE", [a, d] => some (.lde a d)
  | "RDE", [a] => some (.rde a)
  | "LDH", [d] => some (.ldh d)
  | "LDI", [a, d] => some (.ldi a d)
  | "RDI", [a] => some (.rdi a)
  | "RDC", [] => some .rdc
  | "PACK", [] => some .pack
  | "UNPACK", [] => some .unpack
  | "CHK", [] => some .chk
  | "KSETP", [d] => some (.ksetp d)
  | "KSETS", [d] => some (.ksets d)
  | "KLDP", [a, d] => some (.kldp a d)
  | "KLDS", [a, d] => some (.klds a d)
  | "KRUN", [] => some .krun
  | "KRDS", [a] => some (.krds a)
  | _, _ => none

/-- A command's line; refused when an operand does not fit its field as R82 defines it (R88). -/
def assembleCommand (mnemonic : String) (operands : List (List Char)) : Option (List Instr) :=
  (operands.mapM fieldNumber).bind fun fields =>
    (commandOf mnemonic fields).bind fun i => if i.wellFormed then some [i] else none

/-- A pseudo-instruction from its mnemonic and its operands (R89). An empty string of digits is no operand. -/
def pseudoOf (mnemonic : String) (operands : List (List Char)) : Option Pseudo :=
  match mnemonic, operands with
  | "LDENT", [h] => (byteString h).map .ldent
  | "LDIDX", vs => (vs.mapM indexNumber).map .ldidx
  | "RDENT", [k] => (number k).map .rdent
  | "RDIDX", [k] => (number k).map .rdidx
  | "KLDPW", [] => some (.kldpw [])
  | "KLDPW", [h] => (byteString h).map .kldpw
  | "KLDSALT", [] => some (.kldsalt [])
  | "KLDSALT", [h] => (byteString h).map .kldsalt
  | "KRDSEED", [] => some .krdseed
  | _, _ => none

/-- A pseudo-instruction's line, expanded (R89). -/
def assemblePseudo (z : BufferSizes) (mnemonic : String) (operands : List (List Char)) : Option (List Instr) :=
  (pseudoOf mnemonic operands).bind fun q => if q.accepted z then some q.expand else none

/-- The commands of one line; none when the assembler refuses it. A blank line has none. -/
def assembleLine (z : BufferSizes) (line : List Char) : Option (List Instr) :=
  match withoutComment line with
  | [] => some []
  | c :: cs =>
    let mnemonic := String.ofList (mnemonicText (c :: cs))
    let operands := operandTexts (c :: cs)
    match assembleCommand mnemonic operands with
    | some commands => some commands
    | none => assemblePseudo z mnemonic operands

/-- The command words of a text, "one command per line" (R88), for a block with the sizes `z`; none when a line is
refused. What ends a line is the model's choice, DESIGN CHOICE: a line feed ends it, and a carriage return before the line
feed is a blank (notes/assumptions/13.md). -/
def assemble (z : BufferSizes) (text : String) : Option (List Word) :=
  ((splitAtChar '\n' text.toList).mapM (assembleLine z)).map fun lines => lines.flatten.map encode

end Sys2Proof.Machine
end

