-- ==== Sys2Proof/Machine/Run.lean ====
section
/-! DEFINITION. The run of 10_state.md R24: the host's list is a parameter of the run, and the run ends when the list is
exhausted; one step of it is the function of 50_interfaces.md R189. -/

namespace Sys2Proof.Machine

/-- "Given a state and a command word, the next state and a response" (R189), the sizes being the only other input; the
reset input gives no response (R220, notes/assumptions/4.md). -/
def perform (z : BufferSizes) (e : PortEvent) (b : BlockState) : BlockState × List Word :=
  match step { toBlockState := b, sizes := z, input := [e], output := [] } with
  | .next t => (t.toBlockState, t.output)
  | .fault _ => (b, [])
  | .refused _ => (b, [])

/-- The run of the host's list: the block's state at its end, and the responses in the order they were returned (R24,
R180, R181). -/
def run (z : BufferSizes) : List PortEvent → BlockState → BlockState × List Word
  | [], b => (b, [])
  | e :: es, b =>
    let first := perform z e b
    let rest := run z es first.1
    (rest.1, first.2 ++ rest.2)

/-- The run of a list of commands, each as its word (R88). -/
def runCommands (z : BufferSizes) (is : List Instr) (b : BlockState) : BlockState × List Word :=
  run z (is.map fun i => .command (encode i)) b

end Sys2Proof.Machine
end

