-- ==== Sys2Proof/Safety.lean ====
section
/-! DEFINITION. What counts as a good state and a well-behaved command, and the terms the statements use. -/

namespace Sys2Proof.Machine

/-- The block is faulted: "A faulted state is never the good end of a run" (R204). -/
abbrev State.Faulted (s : State) : Prop := s.err ≠ 0#4

/-- What the KO's fields satisfy in every reachable state, in a block with these sizes. -/
structure KoState.Inv (z : BufferSizes) (k : KoState) : Prop where
  /-- `PWLEN` is 0..PWMAX (R31). -/
  pwLen_le : k.pwLen.toNat ≤ z.pwMax
  /-- `SALTLEN` is 0..SALTMAX (R31). -/
  saltLen_le : k.saltLen.toNat ≤ z.saltMax
  /-- `PW` is in its canonical form (notes/assumptions/9.md). -/
  pw_wf : k.pw.wf
  /-- `SALT` is in its canonical form (notes/assumptions/9.md). -/
  salt_wf : k.salt.wf
  /-- `PW` has the addresses 0..PWMAX-1 only (R32, R60). -/
  pw_bound : ∀ c ∈ k.pw, c.1 < z.pwMax
  /-- `SALT` has the addresses 0..SALTMAX-1 only (R32, R60). -/
  salt_bound : ∀ c ∈ k.salt, c.1 < z.saltMax
  /-- While `KDONE` is 1, `SEED` is the derivation of what `PW` and `SALT` hold (R34). -/
  seed_derived : k.kdone = true → k.seed = derivedSeed k
  /-- While `KDONE` is 0, every byte of `SEED` is 0 (R34). -/
  seed_zero : k.kdone = false → k.seed = Vector.replicate 64 0#8

/-- What every reachable state satisfies. -/
structure State.Inv (s : State) : Prop where
  /-- The sizes are ones R6 allows. -/
  sizes_wf : s.sizes.wf
  /-- `SEL` is 0..5 (R25). -/
  sel_le : s.sel.toNat ≤ 5
  /-- `ERR` is 0 or one of the seven causes (R200). -/
  err_le : s.err.toNat ≤ 7
  /-- While `MATCH` is 1, the `CHK` that set it would set it again (R28, R146). -/
  match_holds : s.matched = true → ∃ r, lengthRow s.sel = some r ∧ s.csx = hashBits r.cs s.hash0
  /-- The KO's fields, in a block that has them. -/
  ko_inv : ∀ k, s.ko = some k → k.Inv s.sizes

/-- The state `raise` leaves: `ERR` has the cause's code, the response is 0x80000000, nothing else changed (R203). -/
abbrev State.afterFault (s : State) (code : BitVec 4) : State :=
  { s with err := code, output := 0x80000000#32 :: s.output }

/-- The word is refused as R203 says for `IllegalCommand`: `ERR` is 5, the response is 0x80000000, nothing else. -/
def RaisesIllegal (s : State) (cw : Word) : Prop :=
  step (s.withCommand cw) = .next (s.afterFault 5#4)

/-- `be(X)`, the integer whose big-endian byte sequence is `X` (00_scope.md section 5). -/
def bigEndian : List Byte → Nat
  | [] => 0
  | b :: X => b.toNat * 256 ^ X.length + bigEndian X

/-- The output of round `i + 1` of the derivation: `U` of R164. -/
def prfOutput (prf : List Byte → List Byte → Block) (P S : List Byte) : Nat → Block
  | 0 => prf P (S ++ [0x00#8, 0x00#8, 0x00#8, 0x01#8])
  | i + 1 => prf P (prfOutput prf P S i).toList

end Sys2Proof.Machine

namespace Sys2Proof

/-- The commands of the KO (the unit column of R84). -/
def Instr.isKo : Instr → Bool
  | .ksetp _ | .ksets _ | .kldp _ _ | .klds _ _ | .krun | .krds _ => true
  | .nop | .clr | .rds | .setlen _ | .setwc _ | .lde _ _ | .rde _ | .ldh _ | .ldi _ _ | .rdi _ | .rdc | .pack
  | .unpack | .chk => false

/-- The commands that only read (R67). -/
def Instr.isRead : Instr → Bool
  | .rds | .rde _ | .rdi _ | .rdc | .krds _ => true
  | .nop | .clr | .setlen _ | .setwc _ | .lde _ _ | .ldh _ | .ldi _ _ | .pack | .unpack | .chk | .ksetp _ | .ksets _
  | .kldp _ _ | .klds _ _ | .krun => false

/-- The codes of the causes a command can raise, the columns of R201. -/
def Instr.causeCodes : Instr → List (BitVec 4)
  | .nop | .clr | .rds | .rdc => []
  | .setlen _ => [1#4]
  | .setwc _ => [2#4]
  | .lde _ _ | .ldi _ _ => [5#4, 4#4]
  | .rde _ | .rdi _ => [4#4]
  | .ldh _ => [5#4]
  | .pack | .unpack | .chk => [3#4]
  | .ksetp _ | .ksets _ => [5#4, 7#4]
  | .kldp _ _ | .klds _ _ => [5#4, 4#4]
  | .krun => [5#4]
  | .krds _ => [5#4, 4#4, 6#4]

/-- What a well-behaved host sees to before a command: addresses in range, lengths from the tables, a length selected
before PACK, UNPACK and CHK, and KRDS only while KDONE is 1 (R201, last paragraph). -/
def Instr.inRange (i : Instr) (s : Machine.State) : Prop :=
  match i with
  | .nop | .clr | .rds | .rdc | .ldh _ | .krun => True
  | .setlen d => d.toNat ∈ [16, 20, 24, 28, 32]
  | .setwc d => d.toNat ∈ [12, 15, 18, 21, 24]
  | .lde a _ | .rde a => a.toNat < 32
  | .ldi a _ | .rdi a => a.toNat < 24
  | .pack | .unpack | .chk => 1 ≤ s.sel.toNat ∧ s.sel.toNat ≤ 5
  | .ksetp d => d.toNat ≤ s.sizes.pwMax
  | .ksets d => d.toNat ≤ s.sizes.saltMax
  | .kldp a _ => a.toNat < s.sizes.pwMax
  | .klds a _ => a.toNat < s.sizes.saltMax
  | .krds a => a.toNat < 64 ∧ s.ko.any (·.kdone) = true

end Sys2Proof
end

