-- ==== Sys2Proof/Certificates/Slice0/Obligations.lean ====
section
/-! DEFINITION. The statements for the provers. Each docstring says what the statement says and which rule of spec/ it
formalises. -/

open Sys2Proof Sys2Proof.Machine

/-- Nineteen command words taken from the spec's examples and vectors decode to the commands the spec names, and five
words with a must-be-zero bit set or a reserved opcode decode to none, each rejected by its own name. Derived from
95_test_vectors.md sections 3 and 5; 30_encoding.md section 7. -/
def Obligations.DecodeReadsTheExampleWords : Prop :=
  decode 0x00000000#32 = .command .nop ∧ decode 0x01000000#32 = .command .clr ∧
  decode 0x02000000#32 = .command .rds ∧ decode 0x10000014#32 = .command (.setlen 20) ∧
  decode 0x11000018#32 = .command (.setwc 24) ∧ decode 0x1200F080#32 = .command (.lde 15 0x80) ∧
  decode 0x13003000#32 = .command (.rde 3) ∧ decode 0x1400004E#32 = .command (.ldh 0x4E) ∧
  decode 0x1500B004#32 = .command (.ldi 11 4) ∧ decode 0x1600B000#32 = .command (.rdi 11) ∧
  decode 0x17000000#32 = .command .rdc ∧ decode 0x18000000#32 = .command .pack ∧
  decode 0x19000000#32 = .command .unpack ∧ decode 0x1A000000#32 = .command .chk ∧
  decode 0x20000101#32 = .command (.ksetp 257) ∧ decode 0x21000008#32 = .command (.ksets 8) ∧
  decode 0x22100000#32 = .command (.kldp 256 0) ∧ decode 0x23007063#32 = .command (.klds 7 0x63) ∧
  decode 0x2503F000#32 = .command (.krds 63) ∧
  decode 0x01000001#32 = .illegal .dataNotZero ∧ decode 0x10001010#32 = .illegal .addressNotZero ∧
  decode 0x12000100#32 = .illegal .byteTooWide ∧ decode 0x15000800#32 = .illegal .indexTooWide ∧
  decode 0x03000000#32 = .illegal .reservedOpcode

/-- For every command of all twenty rows whose operands fit (R82), decoding its encoded word gives exactly that command:
no bit of an operand is dropped or moved. Derived from 30_encoding.md sections 1, 2, 4 and 5. -/
def Obligations.DecodeOfEncodeIsTheCommand : Prop :=
  ∀ i : Instr, i.WellFormed → decode (encode i) = .command i

/-- If a word decodes to a command, then encoding the command gives the same word and its operands fit, so each command
has exactly one word. Derived from 30_encoding.md sections 1, 2, 4 and 5. -/
def Obligations.EncodeOfDecodeIsTheWord : Prop :=
  ∀ (cw : Word) (i : Instr), decode cw = .command i → encode i = cw ∧ i.WellFormed

/-- For each of the twenty rows of the opcode map: a word ANDed with the row's mask equals the row's match exactly when
the word decodes to that row's command with the word's own a and d fields as operands. Derived from 30_encoding.md
section 4, the opcode map (R84). -/
def Obligations.MaskAndMatchDecideEveryCommand : Prop :=
  ∀ cw : Word,
    (cw &&& 0xFFFFFFFF#32 = 0x00000000#32 ↔ decode cw = .command .nop) ∧
    (cw &&& 0xFFFFFFFF#32 = 0x01000000#32 ↔ decode cw = .command .clr) ∧
    (cw &&& 0xFFFFFFFF#32 = 0x02000000#32 ↔ decode cw = .command .rds) ∧
    (cw &&& 0xFFFFF000#32 = 0x10000000#32 ↔ decode cw = .command (.setlen (cw.extractLsb' 0 12))) ∧
    (cw &&& 0xFFFFF000#32 = 0x11000000#32 ↔ decode cw = .command (.setwc (cw.extractLsb' 0 12))) ∧
    (cw &&& 0xFF000F00#32 = 0x12000000#32 ↔ decode cw = .command (.lde (cw.extractLsb' 12 12) (cw.extractLsb' 0 12))) ∧
    (cw &&& 0xFF000FFF#32 = 0x13000000#32 ↔ decode cw = .command (.rde (cw.extractLsb' 12 12))) ∧
    (cw &&& 0xFFFFFF00#32 = 0x14000000#32 ↔ decode cw = .command (.ldh (cw.extractLsb' 0 12))) ∧
    (cw &&& 0xFF000800#32 = 0x15000000#32 ↔ decode cw = .command (.ldi (cw.extractLsb' 12 12) (cw.extractLsb' 0 12))) ∧
    (cw &&& 0xFF000FFF#32 = 0x16000000#32 ↔ decode cw = .command (.rdi (cw.extractLsb' 12 12))) ∧
    (cw &&& 0xFFFFFFFF#32 = 0x17000000#32 ↔ decode cw = .command .rdc) ∧
    (cw &&& 0xFFFFFFFF#32 = 0x18000000#32 ↔ decode cw = .command .pack) ∧
    (cw &&& 0xFFFFFFFF#32 = 0x19000000#32 ↔ decode cw = .command .unpack) ∧
    (cw &&& 0xFFFFFFFF#32 = 0x1A000000#32 ↔ decode cw = .command .chk) ∧
    (cw &&& 0xFFFFF000#32 = 0x20000000#32 ↔ decode cw = .command (.ksetp (cw.extractLsb' 0 12))) ∧
    (cw &&& 0xFFFFF000#32 = 0x21000000#32 ↔ decode cw = .command (.ksets (cw.extractLsb' 0 12))) ∧
    (cw &&& 0xFF000F00#32 = 0x22000000#32 ↔ decode cw = .command (.kldp (cw.extractLsb' 12 12) (cw.extractLsb' 0 12))) ∧
    (cw &&& 0xFF000F00#32 = 0x23000000#32 ↔ decode cw = .command (.klds (cw.extractLsb' 12 12) (cw.extractLsb' 0 12))) ∧
    (cw &&& 0xFFFFFFFF#32 = 0x24000000#32 ↔ decode cw = .command .krun) ∧
    (cw &&& 0xFF000FFF#32 = 0x25000000#32 ↔ decode cw = .command (.krds (cw.extractLsb' 12 12)))

/-- In a block that is not faulted, performing a command of the syntax whose data operand has a must-be-zero bit set (no
word decodes to it: the model's own reading of R83, log entry 7) latches cause 5, answers 0x80000000 and changes
nothing else. Derived from 30_encoding.md sections 2 and 3; notes/assumptions/7.md. -/
def Obligations.IllFormedOperandRaisesIllegalCommand : Prop :=
  ∀ (i : Instr) (s : State), ¬ i.WellFormed → s.err = 0#4 → exec i s = .next (s.afterFault 5#4)

/-- In a block that is not faulted, a step on a word whose opcode is in 0x03..0x0F, 0x1B..0x1F or 0x26..0xFF latches cause
5 and answers 0x80000000 and does nothing else. Formalises R85. -/
def Obligations.ReservedOpcodeIsIllegal : Prop :=
  ∀ (s : State) (cw : Word), s.err = 0#4 →
    (0x03 ≤ (cw.extractLsb' 24 8).toNat ∧ (cw.extractLsb' 24 8).toNat ≤ 0x0F) ∨
      (0x1B ≤ (cw.extractLsb' 24 8).toNat ∧ (cw.extractLsb' 24 8).toNat ≤ 0x1F) ∨
      (0x26 ≤ (cw.extractLsb' 24 8).toNat ∧ (cw.extractLsb' 24 8).toNat ≤ 0xFF) →
    RaisesIllegal s cw

/-- In a block that is not faulted, a step on a word with an opcode of format Z or D and a not zero, of format Z or A and
d not zero, of a byte operand and d[11:8] not zero, or of LDI and d[11] not zero, latches cause 5, answers 0x80000000
and does nothing else. Formalises R83. -/
def Obligations.MustBeZeroBitsAreIllegal : Prop :=
  ∀ (s : State) (cw : Word), s.err = 0#4 →
    (cw.extractLsb' 24 8 ∈ [0x00#8, 0x01#8, 0x02#8, 0x17#8, 0x18#8, 0x19#8, 0x1A#8, 0x24#8,
        0x10#8, 0x11#8, 0x14#8, 0x20#8, 0x21#8] ∧ cw.extractLsb' 12 12 ≠ 0#12) ∨
      (cw.extractLsb' 24 8 ∈ [0x00#8, 0x01#8, 0x02#8, 0x17#8, 0x18#8, 0x19#8, 0x1A#8, 0x24#8,
        0x13#8, 0x16#8, 0x25#8] ∧ cw.extractLsb' 0 12 ≠ 0#12) ∨
      (cw.extractLsb' 24 8 ∈ [0x12#8, 0x14#8, 0x22#8, 0x23#8] ∧ cw.extractLsb' 8 4 ≠ 0#4) ∨
      (cw.extractLsb' 24 8 = 0x15#8 ∧ cw.extractLsb' 11 1 ≠ 0#1) →
    RaisesIllegal s cw

/-- In a block that is not faulted and whose HAS_KO is false, a step on any word with an opcode in 0x20..0x25 latches
cause 5, answers 0x80000000 and does nothing else. Formalises R86. -/
def Obligations.KoOpcodesAreIllegalWithoutKo : Prop :=
  ∀ (s : State) (cw : Word), s.err = 0#4 → s.ko = none →
    0x20 ≤ (cw.extractLsb' 24 8).toNat → (cw.extractLsb' 24 8).toNat ≤ 0x25 → RaisesIllegal s cw

/-- When the host's next event is a command word that decodes to i, the step is exec of i at the state with that event
taken from the input (the model's carrier of the command port, log entry 3). Derived from 50_interfaces.md section 2;
30_encoding.md section 5; notes/assumptions/3.md. -/
def Obligations.StepRunsTheDecodedCommand : Prop :=
  ∀ (s : State) (cw : Word) (rest : List PortEvent) (i : Instr),
    s.input = .command cw :: rest → decode cw = .command i → step s = exec i { s with input := rest }

/-- When the host's next event is a word that decodes to no command, the step latches cause 5 and answers 0x80000000 in a
block that is not faulted; in a faulted block only the response 0x80000000 is added. Derived from 30_encoding.md
section 5; 60_exceptions.md sections 3 and 4. -/
def Obligations.StepOnAnIllegalWord : Prop :=
  ∀ (s : State) (cw : Word) (rest : List PortEvent) (why : IllegalWord),
    s.input = .command cw :: rest → decode cw = .illegal why →
    (s.err = 0#4 → step s = .next { s.afterFault 5#4 with input := rest }) ∧
    (s.err ≠ 0#4 → step s = .next { s with input := rest, output := 0x80000000#32 :: s.output })

/-- When the reset input is applied next, in any state, faulted or not, the step gives every field of R20 the value zero
(R220). That the sizes, the rest of the input and the responses already returned stay and that no response is added is
the model's (log entries 1, 3 and 4: the host's list and the responses stand beside the block's state). Power-on
leaves the same values. Derived from 70_reset_and_hazards.md section 1 (R220); notes/assumptions/1.md;
notes/assumptions/3.md; notes/assumptions/4.md. -/
def Obligations.ResetInputClearsTheBlock : Prop :=
  (∀ (s : State) (rest : List PortEvent), s.input = .reset :: rest →
    step s = .next
      { ent := Vector.replicate 32 0#8, idx := Vector.replicate 24 0#11, sel := 0#3, hash0 := 0#8, csx := 0#8,
        matched := false, err := 0#4,
        ko := if s.hasKo then some
            { pwLen := 0#12, saltLen := 0#12, pw := [], salt := [], seed := Vector.replicate 64 0#8, kdone := false }
          else none,
        sizes := s.sizes, input := rest, output := s.output }) ∧
  State.reset =
      { ent := Vector.replicate 32 0#8, idx := Vector.replicate 24 0#11, sel := 0#3, hash0 := 0#8, csx := 0#8,
        matched := false, err := 0#4,
        ko := if Config.hasKo then some
            { pwLen := 0#12, saltLen := 0#12, pw := [], salt := [], seed := Vector.replicate 64 0#8, kdone := false }
          else none,
        sizes := ⟨Config.pwMaxPred.val + 1, Config.saltMaxPred.val + 1⟩, input := [], output := [] }

/-- When the host presents nothing, a step leaves the whole state as it is; the run of an empty list changes nothing and
returns nothing; and from any state, as many steps as the host's list has events end with the list exhausted, the
block's state that of the run of R24, and exactly the run's responses added. That the list is carried beside the
block's state is the model's choice (log entry 3). Derived from 10_state.md section 3 (R24); 60_exceptions.md section
8; 70_reset_and_hazards.md section 1; notes/assumptions/3.md. -/
def Obligations.BlockHoldsItsStateBetweenCommands : Prop :=
  (∀ s : State, s.input = [] → step s = .next s) ∧
  (∀ (z : BufferSizes) (b : BlockState), run z [] b = (b, [])) ∧
  ∀ s : State, ∃ t, Sys2Proof.core.run s.input.length s = .next t ∧ t.input = [] ∧ t.sizes = s.sizes ∧
    t.toBlockState = (run s.sizes s.input s.toBlockState).1 ∧
    t.output = (run s.sizes s.input s.toBlockState).2.reverse ++ s.output

/-- Every field of R20 is zero in the reset state and after CLR performed in any state, and STATUS of a reset block reads
0x00000020 when HAS_KO is true and 0x00000000 when it is false. Formalises R37. -/
def Obligations.EveryFieldIsZeroAfterResetAndClr : Prop :=
  (∀ hasKo : Bool, BlockState.reset hasKo =
      { ent := Vector.replicate 32 0#8, idx := Vector.replicate 24 0#11, sel := 0#3, hash0 := 0#8, csx := 0#8,
        matched := false, err := 0#4,
        ko := if hasKo then some
            { pwLen := 0#12, saltLen := 0#12, pw := [], salt := [], seed := Vector.replicate 64 0#8, kdone := false }
          else none }) ∧
  State.reset.toBlockState = BlockState.reset Config.hasKo ∧
  (∀ s : State, ∃ t, exec .clr s = .next t ∧ t.toBlockState =
      { ent := Vector.replicate 32 0#8, idx := Vector.replicate 24 0#11, sel := 0#3, hash0 := 0#8, csx := 0#8,
        matched := false, err := 0#4,
        ko := if s.hasKo then some
            { pwLen := 0#12, saltLen := 0#12, pw := [], salt := [], seed := Vector.replicate 64 0#8, kdone := false }
          else none }) ∧
  (∀ p : Params, statusWord (State.resetWith p) = if p.hasKo then 0x00000020#32 else 0x00000000#32)

/-- A step on any command word answers a next state in which that word is gone from the input and exactly one response is
added; bit 31 of the response is set exactly when the block is faulted afterwards and the word is not RDS, and then
the response is 0x80000000. The block's next state and the response are a function of its state, the word and the
sizes: two steps that agree on these agree on both, whatever else the host has sent or will send. Derived from
50_interfaces.md sections 1 and 2 (R180, R181, R189). -/
def Obligations.EveryCommandReturnsOneResponse : Prop :=
  (∀ (s : State) (cw : Word) (rest : List PortEvent), s.input = .command cw :: rest →
    ∃ t v, step s = .next t ∧ t.input = rest ∧ t.output = v :: s.output ∧
      (v.getLsbD 31 = true ↔ (t.err ≠ 0#4 ∧ cw ≠ 0x02000000#32)) ∧
      (v.getLsbD 31 = true → v = 0x80000000#32)) ∧
  ∀ (s s' : State) (cw : Word) (rest rest' : List PortEvent), s.toBlockState = s'.toBlockState → s.sizes = s'.sizes →
    s.input = .command cw :: rest → s'.input = .command cw :: rest' →
    ∃ t t' v, step s = .next t ∧ step s' = .next t' ∧ t.toBlockState = t'.toBlockState ∧
      t.output = v :: s.output ∧ t'.output = v :: s'.output

/-- raise of a cause sets ERR to its code and the response to 0x80000000 and changes no other field; and whenever a
command performed by a block that is not faulted leaves it faulted, the state after is the state before with ERR set
and the response 0x80000000 added. Formalises R203. -/
def Obligations.FaultChangesOnlyErrAndAnswers : Prop :=
  (∀ (c : Cause) (s : State), raise c s = s.afterFault (causeCode c)) ∧
  causeCode .invalidLength = 1#4 ∧ causeCode .invalidWordCount = 2#4 ∧ causeCode .noLength = 3#4 ∧
  causeCode .badAddress = 4#4 ∧ causeCode .illegalCommand = 5#4 ∧ causeCode .kNotDone = 6#4 ∧
  causeCode .kLengthRange = 7#4 ∧
  (∀ (i : Instr) (s t : State), s.err = 0#4 → exec i s = .next t → t.err ≠ 0#4 → t = s.afterFault t.err)

/-- In a faulted block a step on any word other than RDS and CLR adds the response 0x80000000 and changes nothing else;
the word 0x02000000 answers STATUS and changes nothing else; the word 0x01000000 gives every field its reset value and
answers 0. Formalises R204. -/
def Obligations.FaultedBlockPerformsOnlyRdsAndClr : Prop :=
  ∀ s : State, s.err ≠ 0#4 →
    (∀ cw : Word, cw ≠ 0x02000000#32 → cw ≠ 0x01000000#32 →
      step (s.withCommand cw) = .next { s with output := 0x80000000#32 :: s.output }) ∧
    step (s.withCommand 0x02000000#32) = .next { s with output := statusWord s :: s.output } ∧
    step (s.withCommand 0x01000000#32) =
      .next { s with toBlockState := BlockState.reset s.hasKo, output := 0#32 :: s.output }

/-- Every step of a faulted block either changes nothing but the input taken and the response added, so ERR keeps its
cause, or leaves every field of R20 at its reset value; the second happens only on the word 0x01000000 or the reset
input. Derived from 60_exceptions.md section 5 (R205, R206). -/
def Obligations.FirstCauseIsKeptUntilClear : Prop :=
  ∀ s t : State, s.err ≠ 0#4 → step s = .next t →
    t = { s with input := t.input, output := t.output } ∨
    (t = { s with toBlockState := BlockState.reset s.hasKo, input := t.input, output := t.output } ∧
      (s.input.head? = some .reset ∨ s.input.head? = some (.command 0x01000000#32)))

/-- When a block that is not faulted performs a command, ERR is afterwards 0 or one of the codes R201 lists for that
command; a block without the KO adds only cause 5 for the KO commands, which R201 lists for them. Derived from
60_exceptions.md section 1 (R201). -/
def Obligations.CommandsRaiseOnlyTheirOwnCauses : Prop :=
  ∀ (i : Instr) (s t : State), s.err = 0#4 → exec i s = .next t → t.err = 0#4 ∨ t.err ∈ i.causeCodes

/-- Two blocks that agree on SEL, ERR, the KO's presence, KDONE and the sizes, whatever their ENT, IDX, HASH0, CSX, PW,
SALT, SEED and lengths hold, have the same ERR after any command. Derived from 60_exceptions.md section 1 (R201, last
paragraph). -/
def Obligations.DataNeverFaults : Prop :=
  ∀ (i : Instr) (s s' t t' : State), s.sel = s'.sel → s.err = s'.err → s.ko.map (·.kdone) = s'.ko.map (·.kdone) →
    s.sizes = s'.sizes → exec i s = .next t → exec i s' = .next t' → t.err = t'.err

/-- In a block that is not faulted, every well-formed command whose address is in range, whose length is in the table or
the buffer, which has a length selected if it needs one, and which finds KDONE if it is KRDS, answers a next state
with ERR 0; a KO command needs HAS_KO. Derived from 60_exceptions.md section 1 (R201, last paragraph). -/
def Obligations.WellBehavedHostNeverFaults : Prop :=
  ∀ (i : Instr) (s : State), s.err = 0#4 → i.WellFormed → i.inRange s → (i.isKo = true → s.hasKo = true) →
    ∃ t, exec i s = .next t ∧ t.err = 0#4

/-- The word 0x00000000 is NOP. In a block that is not faulted NOP adds the response 0 and changes nothing, MATCH
included; with a or d not zero the word raises IllegalCommand; a faulted block ignores NOP with the response
0x80000000. Formalises R101. -/
def Obligations.NopDoesNothing : Prop :=
  encode .nop = 0x00000000#32 ∧
  ∀ s : State,
    (s.err = 0#4 → exec .nop s = .next { s with output := 0#32 :: s.output }) ∧
    (s.err ≠ 0#4 → exec .nop s = .next { s with output := 0x80000000#32 :: s.output }) ∧
    (∀ a d : Field, a ≠ 0#12 ∨ d ≠ 0#12 → s.err = 0#4 → RaisesIllegal s (commandWord 0x00#8 a d))

/-- The word 0x01000000 is CLR. In any state, faulted or not, CLR gives every field of R20 its reset value, all zero, and
answers 0; a word with opcode 0x01 and a or d not zero raises IllegalCommand in a block that is not faulted and is
ignored by a faulted one; CLR then RDS answers 0x20 with HAS_KO and 0 without. Formalises R100. -/
def Obligations.ClrGivesEveryFieldItsResetValue : Prop :=
  encode .clr = 0x01000000#32 ∧
  ∀ s : State,
    (exec .clr s = .next
      { ent := Vector.replicate 32 0#8, idx := Vector.replicate 24 0#11, sel := 0#3, hash0 := 0#8, csx := 0#8,
        matched := false, err := 0#4,
        ko := if s.hasKo then some
            { pwLen := 0#12, saltLen := 0#12, pw := [], salt := [], seed := Vector.replicate 64 0#8, kdone := false }
          else none,
        sizes := s.sizes, input := s.input, output := 0#32 :: s.output }) ∧
    (∀ t, exec .clr s = .next t → statusWord t = if s.hasKo then 0x00000020#32 else 0x00000000#32) ∧
    (∀ a d : Field, a ≠ 0#12 ∨ d ≠ 0#12 → s.err = 0#4 → RaisesIllegal s (commandWord 0x01#8 a d)) ∧
    (∀ a d : Field, a ≠ 0#12 ∨ d ≠ 0#12 → s.err ≠ 0#4 →
      step (s.withCommand (commandWord 0x01#8 a d)) = .next { s with output := 0x80000000#32 :: s.output })

/-- The word 0x02000000 is RDS. In any state, faulted or not, RDS adds a response whose bits 2:0 are SEL, bit 3 MATCH, bit
4 KDONE (0 without the KO), bit 5 HASKO, bits 11:8 ERR and whose bits 7:6 and 31:12 are 0, and changes nothing; with a
or d not zero the word raises IllegalCommand in a block that is not faulted and is ignored by a faulted one.
Formalises R102; R30. -/
def Obligations.RdsAnswersStatus : Prop :=
  encode .rds = 0x02000000#32 ∧
  ∀ s : State,
    (∃ v : Word, exec .rds s = .next { s with output := v :: s.output } ∧
      v.extractLsb' 0 3 = s.sel ∧ v.getLsbD 3 = s.matched ∧ v.getLsbD 4 = s.ko.any (·.kdone) ∧
      v.getLsbD 5 = s.hasKo ∧ v.extractLsb' 6 2 = 0#2 ∧ v.extractLsb' 8 4 = s.err ∧
      v.extractLsb' 12 20 = 0#20) ∧
    (∀ a d : Field, a ≠ 0#12 ∨ d ≠ 0#12 → s.err = 0#4 → RaisesIllegal s (commandWord 0x02#8 a d)) ∧
    (∀ a d : Field, a ≠ 0#12 ∨ d ≠ 0#12 → s.err ≠ 0#4 →
      step (s.withCommand (commandWord 0x02#8 a d)) = .next { s with output := 0x80000000#32 :: s.output })

/-- Rows 1 to 5 give (L, CS, N) = (16,4,12), (20,5,15), (24,6,18), (28,7,21), (32,8,24), row 0 none; in every row L = 12 +
4*SEL, CS = 3 + SEL, N = 9 + 3*SEL, CS = L/4 = 8L/32, N = 3*CS and 8L + CS = 11N. No two rows have the same N, so N
determines L: CS = N/3 and 8L = 11N - CS. Formalises R110; R114. -/
def Obligations.LengthTableHasTheFiveRows : Prop :=
  lengthRow 0#3 = none ∧ lengthRow 1#3 = some ⟨16, 4, 12⟩ ∧ lengthRow 2#3 = some ⟨20, 5, 15⟩ ∧
  lengthRow 3#3 = some ⟨24, 6, 18⟩ ∧ lengthRow 4#3 = some ⟨28, 7, 21⟩ ∧ lengthRow 5#3 = some ⟨32, 8, 24⟩ ∧
  ∀ (k : BitVec 3) (r : LengthRow), lengthRow k = some r →
    r.len = 12 + 4 * k.toNat ∧ r.cs = 3 + k.toNat ∧ r.words = 9 + 3 * k.toNat ∧ r.cs = r.len / 4 ∧
      r.cs = 8 * r.len / 32 ∧ r.words = 3 * r.cs ∧ 8 * r.len + r.cs = 11 * r.words ∧ r.cs = r.words / 3 ∧
      8 * r.len = 11 * r.words - r.cs ∧
      ∀ (k' : BitVec 3) (r' : LengthRow), lengthRow k' = some r' → r'.words = r.words → k' = k ∧ r'.len = r.len

/-- In a block that is not faulted, SETLEN d with d a legal entropy length writes the row number to SEL, clears MATCH,
answers 0 and changes nothing else; any other d latches cause 1 (InvalidLength) and changes nothing else; a not zero
raises IllegalCommand. Formalises R111. -/
def Obligations.SetlenSelectsByEntropyLength : Prop :=
  (∀ d : Field, encode (.setlen d) = 0x10000000#32 ||| d.setWidth 32) ∧
  ∀ s : State, s.err = 0#4 →
    (∀ d k, (d, k) ∈ [(16#12, 1#3), (20#12, 2#3), (24#12, 3#3), (28#12, 4#3), (32#12, 5#3)] →
      exec (.setlen d) s = .next { s with sel := k, matched := false, output := 0#32 :: s.output }) ∧
    (∀ d : Field, d ∉ [16#12, 20#12, 24#12, 28#12, 32#12] → exec (.setlen d) s = .next (s.afterFault 1#4)) ∧
    (∀ a d : Field, a ≠ 0#12 → RaisesIllegal s (commandWord 0x10#8 a d))

/-- In a block that is not faulted, SETWC d with d a legal word count writes the row number to SEL, clears MATCH, answers
0 and changes nothing else; any other d latches cause 2 (InvalidWordCount) and changes nothing else; a not zero raises
IllegalCommand. Formalises R112. -/
def Obligations.SetwcSelectsByWordCount : Prop :=
  (∀ d : Field, encode (.setwc d) = 0x11000000#32 ||| d.setWidth 32) ∧
  ∀ s : State, s.err = 0#4 →
    (∀ d k, (d, k) ∈ [(12#12, 1#3), (15#12, 2#3), (18#12, 3#3), (21#12, 4#3), (24#12, 5#3)] →
      exec (.setwc d) s = .next { s with sel := k, matched := false, output := 0#32 :: s.output }) ∧
    (∀ d : Field, d ∉ [12#12, 15#12, 18#12, 21#12, 24#12] → exec (.setwc d) s = .next (s.afterFault 2#4)) ∧
    (∀ a d : Field, a ≠ 0#12 → RaisesIllegal s (commandWord 0x11#8 a d))

/-- In a block that is not faulted, LDE a, d with a fitting operand and a below 32 writes element a of ENT, clears MATCH,
answers 0 and changes nothing else, no other element of ENT included; a at or above 32 latches cause 4 (BadAddress);
d[11:8] not zero raises IllegalCommand; in both cases nothing is written. Formalises R120. -/
def Obligations.LdeWritesOneEntropyByte : Prop :=
  (∀ a d : Field, encode (.lde a d) = 0x12000000#32 ||| a.setWidth 32 <<< 12 ||| d.setWidth 32) ∧
  ∀ s : State, s.err = 0#4 →
    (∀ a d : Field, d.extractLsb' 8 4 = 0#4 → a.toNat < 32 → ∃ t, exec (.lde a d) s = .next t ∧
      t.ent[a.toNat]? = some (d.extractLsb' 0 8) ∧ (∀ j, j ≠ a.toNat → t.ent[j]? = s.ent[j]?) ∧
      t = { s with ent := t.ent, matched := false, output := 0#32 :: s.output }) ∧
    (∀ a d : Field, d.extractLsb' 8 4 = 0#4 → 32 ≤ a.toNat → exec (.lde a d) s = .next (s.afterFault 4#4)) ∧
    (∀ a d : Field, d.extractLsb' 8 4 ≠ 0#4 →
      exec (.lde a d) s = .next (s.afterFault 5#4) ∧ RaisesIllegal s (commandWord 0x12#8 a d))

/-- In a block that is not faulted, RDE a with a below 32 answers element a of ENT zero-extended to 32 bits and changes
nothing; a at or above 32 latches cause 4 (BadAddress); d not zero raises IllegalCommand. Formalises R121. -/
def Obligations.RdeReadsOneEntropyByte : Prop :=
  (∀ a : Field, encode (.rde a) = 0x13000000#32 ||| a.setWidth 32 <<< 12) ∧
  ∀ s : State, s.err = 0#4 →
    (∀ a : Field, a.toNat < 32 → ∃ x, s.ent[a.toNat]? = some x ∧
      exec (.rde a) s = .next { s with output := x.setWidth 32 :: s.output }) ∧
    (∀ a : Field, 32 ≤ a.toNat → exec (.rde a) s = .next (s.afterFault 4#4)) ∧
    (∀ a d : Field, d ≠ 0#12 → RaisesIllegal s (commandWord 0x13#8 a d))

/-- In a block that is not faulted, LDH d with d[11:8] zero writes the whole byte d[7:0] to HASH0, clears MATCH, answers 0
and changes nothing else, whatever SEL is; d[11:8] not zero or a not zero raises IllegalCommand. Formalises R122. -/
def Obligations.LdhWritesTheHashByte : Prop :=
  (∀ d : Field, encode (.ldh d) = 0x14000000#32 ||| d.setWidth 32) ∧
  ∀ s : State, s.err = 0#4 →
    (∀ d : Field, d.extractLsb' 8 4 = 0#4 →
      exec (.ldh d) s = .next { s with hash0 := d.extractLsb' 0 8, matched := false, output := 0#32 :: s.output }) ∧
    (∀ d : Field, d.extractLsb' 8 4 ≠ 0#4 → exec (.ldh d) s = .next (s.afterFault 5#4)) ∧
    (∀ a d : Field, a ≠ 0#12 ∨ d.extractLsb' 8 4 ≠ 0#4 → RaisesIllegal s (commandWord 0x14#8 a d))

/-- In a block that is not faulted, LDI a, d with a fitting operand and a below 24 writes element a of IDX, clears MATCH,
answers 0 and changes nothing else, no other element of IDX included; a at or above 24 latches cause 4 (BadAddress);
d[11] not zero raises IllegalCommand; in both cases nothing is written. Formalises R123. -/
def Obligations.LdiWritesOneIndex : Prop :=
  (∀ a d : Field, encode (.ldi a d) = 0x15000000#32 ||| a.setWidth 32 <<< 12 ||| d.setWidth 32) ∧
  ∀ s : State, s.err = 0#4 →
    (∀ a d : Field, d.extractLsb' 11 1 = 0#1 → a.toNat < 24 → ∃ t, exec (.ldi a d) s = .next t ∧
      t.idx[a.toNat]? = some (d.extractLsb' 0 11) ∧ (∀ j, j ≠ a.toNat → t.idx[j]? = s.idx[j]?) ∧
      t = { s with idx := t.idx, matched := false, output := 0#32 :: s.output }) ∧
    (∀ a d : Field, d.extractLsb' 11 1 = 0#1 → 24 ≤ a.toNat → exec (.ldi a d) s = .next (s.afterFault 4#4)) ∧
    (∀ a d : Field, d.extractLsb' 11 1 ≠ 0#1 →
      exec (.ldi a d) s = .next (s.afterFault 5#4) ∧ RaisesIllegal s (commandWord 0x15#8 a d))

/-- In a block that is not faulted, RDI a with a below 24 answers element a of IDX zero-extended to 32 bits and changes
nothing; a at or above 24 latches cause 4 (BadAddress); d not zero raises IllegalCommand. Formalises R124. -/
def Obligations.RdiReadsOneIndex : Prop :=
  (∀ a : Field, encode (.rdi a) = 0x16000000#32 ||| a.setWidth 32 <<< 12) ∧
  ∀ s : State, s.err = 0#4 →
    (∀ a : Field, a.toNat < 24 → ∃ x, s.idx[a.toNat]? = some x ∧
      exec (.rdi a) s = .next { s with output := x.setWidth 32 :: s.output }) ∧
    (∀ a : Field, 24 ≤ a.toNat → exec (.rdi a) s = .next (s.afterFault 4#4)) ∧
    (∀ a d : Field, d ≠ 0#12 → RaisesIllegal s (commandWord 0x16#8 a d))

/-- In a block that is not faulted, RDC answers CSX zero-extended to 32 bits and changes nothing, with no length needed; a
or d not zero raises IllegalCommand. With CSX from UNPACK under a row of CS bits, bits 31:CS of the response are zero
and its bit CS-1-k is stream bit 8L + k. Formalises R125. -/
def Obligations.RdcAnswersTheChecksumBits : Prop :=
  encode .rdc = 0x17000000#32 ∧
  ∀ s : State, s.err = 0#4 →
    exec .rdc s = .next { s with output := s.csx.setWidth 32 :: s.output } ∧
    (∀ a d : Field, a ≠ 0#12 ∨ d ≠ 0#12 → RaisesIllegal s (commandWord 0x17#8 a d)) ∧
    (∀ r t, lengthRow s.sel = some r → exec .unpack s = .next t →
      ∃ v : Word, exec .rdc t = .next { t with output := v :: t.output } ∧ v.toNat < 2 ^ r.cs ∧
        ∀ k, k < r.cs → v.getLsbD (r.cs - 1 - k) =
          (s.idx.getD ((8 * r.len + k) / 11) 0#11).getLsbD (10 - (8 * r.len + k) % 11))

/-- In a block that is not faulted with a length selected, PACK writes the N indices of pack(L, ENT[0..L-1], HASH0) to
IDX[0..N-1], clears MATCH, answers 0 and changes nothing else, IDX[N..23] included; with SEL = 0 it latches cause 3
(NoLength) and writes nothing; a or d not zero raises IllegalCommand. Formalises R144. -/
def Obligations.PackWritesTheIndices : Prop :=
  encode .pack = 0x18000000#32 ∧
  ∀ s : State, s.err = 0#4 →
    (∀ r, lengthRow s.sel = some r → ∃ t, exec .pack s = .next t ∧
      (∀ j, j < r.words → t.idx[j]? = (pack r (s.ent.toList.take r.len) s.hash0)[j]?) ∧
      (∀ j, r.words ≤ j → t.idx[j]? = s.idx[j]?) ∧
      t = { s with idx := t.idx, matched := false, output := 0#32 :: s.output }) ∧
    (s.sel = 0#3 → exec .pack s = .next (s.afterFault 3#4)) ∧
    (∀ a d : Field, a ≠ 0#12 ∨ d ≠ 0#12 → RaisesIllegal s (commandWord 0x18#8 a d))

/-- In a block that is not faulted with a length selected, UNPACK writes the L bytes and the CS checksum bits of unpack(N,
IDX[0..N-1]) to ENT[0..L-1] and CSX, clears MATCH, answers 0 and changes nothing else, ENT[L..31] included; CSX[7:CS]
is zero; with SEL = 0 it latches cause 3 (NoLength) and writes nothing; a or d not zero raises IllegalCommand.
Formalises R145. -/
def Obligations.UnpackWritesEntropyAndChecksum : Prop :=
  encode .unpack = 0x19000000#32 ∧
  ∀ s : State, s.err = 0#4 →
    (∀ r, lengthRow s.sel = some r → ∃ t, exec .unpack s = .next t ∧
      (∀ j, j < r.len → t.ent[j]? = (unpackEntropy r (s.idx.toList.take r.words))[j]?) ∧
      (∀ j, r.len ≤ j → t.ent[j]? = s.ent[j]?) ∧
      t.csx = unpackChecksum r (s.idx.toList.take r.words) ∧ t.csx.toNat < 2 ^ r.cs ∧
      t = { s with ent := t.ent, csx := t.csx, matched := false, output := 0#32 :: s.output }) ∧
    (s.sel = 0#3 → exec .unpack s = .next (s.afterFault 3#4)) ∧
    (∀ a d : Field, a ≠ 0#12 ∨ d ≠ 0#12 → RaisesIllegal s (commandWord 0x19#8 a d))

/-- In a block that is not faulted with a length selected, CHK sets MATCH to 1 and answers 1 when CSX equals HASH0 >> (8 -
CS) with CS = 3 + SEL, sets MATCH to 0 and answers 0 otherwise, and changes nothing else; with SEL = 0 it latches
cause 3 (NoLength) and MATCH keeps its value; a or d not zero raises IllegalCommand. Formalises R146. -/
def Obligations.ChkComparesTheChecksumBits : Prop :=
  encode .chk = 0x1A000000#32 ∧
  ∀ s : State, s.err = 0#4 →
    (1 ≤ s.sel.toNat → s.sel.toNat ≤ 5 → s.csx.toNat = s.hash0.toNat >>> (8 - (3 + s.sel.toNat)) →
      exec .chk s = .next { s with matched := true, output := 1#32 :: s.output }) ∧
    (1 ≤ s.sel.toNat → s.sel.toNat ≤ 5 → s.csx.toNat ≠ s.hash0.toNat >>> (8 - (3 + s.sel.toNat)) →
      exec .chk s = .next { s with matched := false, output := 0#32 :: s.output }) ∧
    (s.sel = 0#3 → exec .chk s = .next (s.afterFault 3#4)) ∧
    (∀ a d : Field, a ≠ 0#12 ∨ d ≠ 0#12 → RaisesIllegal s (commandWord 0x1A#8 a d))

/-- In a block that is not faulted and has the KO, KSETP d with d at most PWMAX writes d to PWLEN, clears KDONE and every
byte of SEED, answers 0 and changes nothing else; a greater d latches cause 7 (KLengthRange) and writes nothing; a not
zero, or HAS_KO false, raises IllegalCommand. Formalises R160. -/
def Obligations.KsetpSetsThePasswordLength : Prop :=
  (∀ d : Field, encode (.ksetp d) = 0x20000000#32 ||| d.setWidth 32) ∧
  ∀ s : State, s.err = 0#4 →
    (∀ (d : Field) (k : KoState), s.ko = some k → d.toNat ≤ s.sizes.pwMax → exec (.ksetp d) s = .next
      { s with
        ko := some { k with pwLen := d, kdone := false, seed := Vector.replicate 64 0#8 }
        output := 0#32 :: s.output }) ∧
    (∀ d : Field, s.hasKo = true → s.sizes.pwMax < d.toNat → exec (.ksetp d) s = .next (s.afterFault 7#4)) ∧
    (∀ d : Field, s.ko = none → exec (.ksetp d) s = .next (s.afterFault 5#4)) ∧
    (∀ a d : Field, a ≠ 0#12 → RaisesIllegal s (commandWord 0x20#8 a d))

/-- In a block that is not faulted and has the KO, KSETS d with d at most SALTMAX writes d to SALTLEN, clears KDONE and
every byte of SEED, answers 0 and changes nothing else; a greater d latches cause 7 (KLengthRange) and writes nothing;
a not zero, or HAS_KO false, raises IllegalCommand. Formalises R161. -/
def Obligations.KsetsSetsTheSaltLength : Prop :=
  (∀ d : Field, encode (.ksets d) = 0x21000000#32 ||| d.setWidth 32) ∧
  ∀ s : State, s.err = 0#4 →
    (∀ (d : Field) (k : KoState), s.ko = some k → d.toNat ≤ s.sizes.saltMax → exec (.ksets d) s = .next
      { s with
        ko := some { k with saltLen := d, kdone := false, seed := Vector.replicate 64 0#8 }
        output := 0#32 :: s.output }) ∧
    (∀ d : Field, s.hasKo = true → s.sizes.saltMax < d.toNat → exec (.ksets d) s = .next (s.afterFault 7#4)) ∧
    (∀ d : Field, s.ko = none → exec (.ksets d) s = .next (s.afterFault 5#4)) ∧
    (∀ a d : Field, a ≠ 0#12 → RaisesIllegal s (commandWord 0x21#8 a d))

/-- In a block that is not faulted and has the KO, KLDP a, d with d[11:8] zero and a below PWMAX writes the byte d[7:0] at
address a of PW, leaves every other byte of it, clears KDONE and every byte of SEED, answers 0 and changes nothing
else; a at or above PWMAX latches cause 4 (BadAddress); d[11:8] not zero, or HAS_KO false, raises IllegalCommand. The
buffer is in its canonical form, an invariant of the model. Formalises R162. -/
def Obligations.KldpWritesOnePasswordByte : Prop :=
  (∀ a d : Field, encode (.kldp a d) = 0x22000000#32 ||| a.setWidth 32 <<< 12 ||| d.setWidth 32) ∧
  ∀ s : State, s.err = 0#4 →
    (∀ (a d : Field) (k : KoState), s.ko = some k → k.pw.wf → d.extractLsb' 8 4 = 0#4 → a.toNat < s.sizes.pwMax →
      ∃ m, exec (.kldp a d) s = .next
          { s with
            ko := some { k with pw := m, kdone := false, seed := Vector.replicate 64 0#8 }
            output := 0#32 :: s.output } ∧
        m.read a.toNat = d.extractLsb' 0 8 ∧ ∀ x, x ≠ a.toNat → m.read x = k.pw.read x) ∧
    (∀ a d : Field, s.hasKo = true → d.extractLsb' 8 4 = 0#4 → s.sizes.pwMax ≤ a.toNat →
      exec (.kldp a d) s = .next (s.afterFault 4#4)) ∧
    (∀ a d : Field, s.ko = none ∨ d.extractLsb' 8 4 ≠ 0#4 →
      exec (.kldp a d) s = .next (s.afterFault 5#4) ∧ RaisesIllegal s (commandWord 0x22#8 a d))

/-- In a block that is not faulted and has the KO, KLDS a, d with d[11:8] zero and a below SALTMAX writes the byte d[7:0]
at address a of SALT, leaves every other byte of it, clears KDONE and every byte of SEED, answers 0 and changes
nothing else; a at or above SALTMAX latches cause 4 (BadAddress); d[11:8] not zero, or HAS_KO false, raises
IllegalCommand. The buffer is in its canonical form, an invariant of the model. Formalises R163. -/
def Obligations.KldsWritesOneSaltByte : Prop :=
  (∀ a d : Field, encode (.klds a d) = 0x23000000#32 ||| a.setWidth 32 <<< 12 ||| d.setWidth 32) ∧
  ∀ s : State, s.err = 0#4 →
    (∀ (a d : Field) (k : KoState), s.ko = some k → k.salt.wf → d.extractLsb' 8 4 = 0#4 → a.toNat < s.sizes.saltMax →
      ∃ m, exec (.klds a d) s = .next
          { s with
            ko := some { k with salt := m, kdone := false, seed := Vector.replicate 64 0#8 }
            output := 0#32 :: s.output } ∧
        m.read a.toNat = d.extractLsb' 0 8 ∧ ∀ x, x ≠ a.toNat → m.read x = k.salt.read x) ∧
    (∀ a d : Field, s.hasKo = true → d.extractLsb' 8 4 = 0#4 → s.sizes.saltMax ≤ a.toNat →
      exec (.klds a d) s = .next (s.afterFault 4#4)) ∧
    (∀ a d : Field, s.ko = none ∨ d.extractLsb' 8 4 ≠ 0#4 →
      exec (.klds a d) s = .next (s.afterFault 5#4) ∧ RaisesIllegal s (commandWord 0x23#8 a d))

/-- In a block that is not faulted and has the KO, KRUN writes kdf(PW[0..PWLEN-1], SALT[0..SALTLEN-1]), with the block's
own PRF, to SEED, sets KDONE to 1, answers 0 and changes nothing else; a or d not zero, or HAS_KO false, raises
IllegalCommand. What kdf computes is a statement of its own. Formalises R165. -/
def Obligations.KrunDerivesTheSeed : Prop :=
  encode .krun = 0x24000000#32 ∧
  ∀ s : State, s.err = 0#4 →
    (∀ k : KoState, s.ko = some k → exec .krun s = .next
      { s with
        ko := some { k with
          seed := kdf Config.prf ((List.range k.pwLen.toNat).map k.pw.read) ((List.range k.saltLen.toNat).map k.salt.read)
          kdone := true }
        output := 0#32 :: s.output }) ∧
    (s.ko = none → exec .krun s = .next (s.afterFault 5#4)) ∧
    (∀ a d : Field, a ≠ 0#12 ∨ d ≠ 0#12 → RaisesIllegal s (commandWord 0x24#8 a d))

/-- In a block that is not faulted and has the KO, KRDS a with a below 64 and KDONE = 1 answers SEED[a] zero-extended and
changes nothing; a at or above 64 latches cause 4 (BadAddress) whatever KDONE is; with a below 64 and KDONE = 0 cause
6 (KNotDone) is latched; d not zero, or HAS_KO false, raises IllegalCommand. Formalises R166. -/
def Obligations.KrdsReadsOneSeedByte : Prop :=
  (∀ a : Field, encode (.krds a) = 0x25000000#32 ||| a.setWidth 32 <<< 12) ∧
  ∀ s : State, s.err = 0#4 →
    (∀ (a : Field) (k : KoState), s.ko = some k → a.toNat < 64 → k.kdone = true → ∃ x, k.seed[a.toNat]? = some x ∧
      exec (.krds a) s = .next { s with output := x.setWidth 32 :: s.output }) ∧
    (∀ a : Field, s.hasKo = true → 64 ≤ a.toNat → exec (.krds a) s = .next (s.afterFault 4#4)) ∧
    (∀ (a : Field) (k : KoState), s.ko = some k → a.toNat < 64 → k.kdone = false →
      exec (.krds a) s = .next (s.afterFault 6#4)) ∧
    (∀ a : Field, s.ko = none → exec (.krds a) s = .next (s.afterFault 5#4)) ∧
    (∀ a d : Field, d ≠ 0#12 → RaisesIllegal s (commandWord 0x25#8 a d))

/-- The block right after reset satisfies the invariant of every reachable state, for the open parameters of the block
(opaque at reset: the model's, log entry 1) and for every parameters R6 allows. The clauses that PW and SALT are in
their canonical form are the model's (log entry 9); the others are the spec's. Derived from 00_scope.md section 4
(R6); 10_state.md sections 1 to 5 and 8; notes/assumptions/1.md; notes/assumptions/9.md. -/
def Obligations.ResetSatisfiesTheInvariant : Prop :=
  State.reset.Inv ∧ ∀ p : Params, p.wf → (State.resetWith p).Inv

/-- If the invariant holds and the block takes a step (any command word, the reset input, or nothing), it holds
afterwards: the sizes are legal, SEL is at most 5, ERR at most 7, MATCH = 1 means CSX still equals the top CS bits of
HASH0, PWLEN and SALTLEN are at most PWMAX and SALTMAX, PW and SALT hold only addresses of their space, SEED is the
derivation of the current PW and SALT while KDONE is 1 and zero while it is 0; and the step neither makes nor removes
the KO's fields and keeps the sizes. That PW and SALT are in canonical form is the model's (log entry 9), and so is
that HAS_KO is the presence of the KO's fields (log entry 5). Derived from 00_scope.md section 4 (R6); 10_state.md
sections 1, 4 and 5 (R20, R25, R28, R31, R34); 60_exceptions.md section 1 (R200); notes/assumptions/5.md;
notes/assumptions/9.md. -/
def Obligations.EveryStepKeepsTheInvariant : Prop :=
  ∀ s t : State, s.Inv → step s = .next t → t.Inv ∧ t.hasKo = s.hasKo ∧ t.sizes = s.sizes

/-- If MATCH is 1 after a command, the command is CHK, or MATCH was 1 before it and it changed none of SEL, ENT, IDX,
HASH0 and CSX. Derived from 10_state.md section 4 (R28). -/
def Obligations.MatchOutlivesNoChange : Prop :=
  ∀ (i : Instr) (s t : State), exec i s = .next t → t.matched = true →
    i = .chk ∨ (s.matched = true ∧ t.sel = s.sel ∧ t.ent = s.ent ∧ t.idx = s.idx ∧ t.hash0 = s.hash0 ∧ t.csx = s.csx)

/-- When any command but CLR answers a next state, each field is as before, or the access table R38 lists the command as a
writer of it: element by element for ENT, IDX, PW and SALT. The KO's fields are neither made nor taken away, the sizes
and the input are never written, and exactly one response is added. So no PU command touches KO state and no KO
command touches PU state. Derived from 10_state.md section 9 (R38). -/
def Obligations.EveryCommandWritesOnlyItsColumns : Prop :=
  ∀ (i : Instr) (s t : State), exec i s = .next t → i ≠ .clr →
    (t.sel = s.sel ∨ ∃ d, i = .setlen d ∨ i = .setwc d) ∧
    (∀ j, t.ent[j]? = s.ent[j]? ∨ (∃ a d : Field, i = .lde a d ∧ a.toNat = j) ∨
      (i = .unpack ∧ ∃ r, lengthRow s.sel = some r ∧ j < r.len)) ∧
    (∀ j, t.idx[j]? = s.idx[j]? ∨ (∃ a d : Field, i = .ldi a d ∧ a.toNat = j) ∨
      (i = .pack ∧ ∃ r, lengthRow s.sel = some r ∧ j < r.words)) ∧
    (t.hash0 = s.hash0 ∨ ∃ d, i = .ldh d) ∧
    (t.csx = s.csx ∨ i = .unpack) ∧
    (t.matched = s.matched ∨ i = .chk ∨ (t.matched = false ∧ ((∃ d, i = .setlen d ∨ i = .setwc d ∨ i = .ldh d) ∨
      (∃ a d, i = .lde a d ∨ i = .ldi a d) ∨ i = .pack ∨ i = .unpack))) ∧
    (t.err = s.err ∨ s.err = 0#4) ∧
    (s.ko = none → t.ko = none) ∧
    (∀ k, s.ko = some k → ∃ l, t.ko = some l ∧
      (l.pwLen = k.pwLen ∨ ∃ d, i = .ksetp d) ∧
      (l.saltLen = k.saltLen ∨ ∃ d, i = .ksets d) ∧
      (∀ x, l.pw.read x = k.pw.read x ∨ ∃ a d : Field, i = .kldp a d ∧ a.toNat = x) ∧
      (∀ x, l.salt.read x = k.salt.read x ∨ ∃ a d : Field, i = .klds a d ∧ a.toNat = x) ∧
      ((l.seed = k.seed ∧ l.kdone = k.kdone) ∨ (i = .krun ∧ l.kdone = true) ∨
        (l.seed = Vector.replicate 64 0#8 ∧ l.kdone = false ∧
          ((∃ d, i = .ksetp d ∨ i = .ksets d) ∨ ∃ a d, i = .kldp a d ∨ i = .klds a d)))) ∧
    t.sizes = s.sizes ∧ t.input = s.input ∧ ∃ v, t.output = v :: s.output

/-- When RDS, RDE, RDI, RDC or KRDS completes without a fault it only adds its response, and the same read performed again
adds the same response. Derived from 20_memory.md section 4 (R67). -/
def Obligations.ReadsChangeNoStateAndRepeat : Prop :=
  ∀ (i : Instr) (s t : State), i.isRead = true → s.err = 0#4 → exec i s = .next t → t.err = 0#4 →
    ∃ v, t = { s with output := v :: s.output } ∧ exec i t = .next { t with output := v :: t.output }

/-- In every state that satisfies the invariant, if KRDS a leaves a block that is not faulted unfaulted, then its response
is byte a of kdf of the current password and salt, zero-extended. Derived from 44_kdf_orchestrator.md (R166, corner
cases); 10_state.md section 5 (R34). -/
def Obligations.SuccessfulKrdsReturnsTheCurrentSeed : Prop :=
  ∀ (a : Field) (s t : State), s.Inv → s.err = 0#4 → exec (.krds a) s = .next t → t.err = 0#4 →
    ∃ k x, s.ko = some k ∧
      (kdf Config.prf (k.pw.bytes k.pwLen.toNat) (k.salt.bytes k.saltLen.toNat))[a.toNat]? = some x ∧
      t.output = x.setWidth 32 :: s.output

/-- Two blocks that are not faulted and agree on SEL, ENT[0..L-1] and the top CS bits of HASH0 have the same IDX[0..N-1]
after PACK; that agree on SEL and IDX[0..N-1] have the same ENT[0..L-1] and CSX after UNPACK; that agree on SEL, CSX
and HASH0 have the same MATCH after CHK; that have the KO and agree on PW[0..PWLEN-1] and SALT[0..SALTLEN-1] have the
same SEED after KRUN; whatever the rest of their states. Formalises R39. -/
def Obligations.ResultsDependOnlyOnNamedInputs : Prop :=
  ∀ s s' : State, s.err = 0#4 → s'.err = 0#4 →
    (∀ r, lengthRow s.sel = some r → s'.sel = s.sel → (∀ j, j < r.len → s.ent[j]? = s'.ent[j]?) →
      s.hash0 >>> (8 - r.cs) = s'.hash0 >>> (8 - r.cs) →
      ∃ t t', exec .pack s = .next t ∧ exec .pack s' = .next t' ∧ ∀ j, j < r.words → t.idx[j]? = t'.idx[j]?) ∧
    (∀ r, lengthRow s.sel = some r → s'.sel = s.sel → (∀ j, j < r.words → s.idx[j]? = s'.idx[j]?) →
      ∃ t t', exec .unpack s = .next t ∧ exec .unpack s' = .next t' ∧ t.csx = t'.csx ∧
        ∀ j, j < r.len → t.ent[j]? = t'.ent[j]?) ∧
    (∀ r, lengthRow s.sel = some r → s'.sel = s.sel → s'.csx = s.csx → s'.hash0 = s.hash0 →
      ∃ t t', exec .chk s = .next t ∧ exec .chk s' = .next t' ∧ t.matched = t'.matched) ∧
    (∀ k k', s.ko = some k → s'.ko = some k' → k'.pwLen = k.pwLen → k'.saltLen = k.saltLen →
      (∀ x, x < k.pwLen.toNat → k.pw.read x = k'.pw.read x) →
      (∀ x, x < k.saltLen.toNat → k.salt.read x = k'.salt.read x) →
      ∃ t t' l l', exec .krun s = .next t ∧ exec .krun s' = .next t' ∧ t.ko = some l ∧ t'.ko = some l' ∧
        l.seed = l'.seed)

/-- Replace the contents of PW and SALT by any others: every command other than KRUN gives the same response and leaves
the same state but for PW and SALT themselves. Derived from 20_memory.md section 1 (R60); 60_exceptions.md section 7
(R210). -/
def Obligations.PasswordAndSaltCannotBeReadBack : Prop :=
  ∀ (i : Instr) (s t : State) (p q : Memory), i ≠ .krun → exec i s = .next t →
    ∃ p' q', exec i { s with ko := s.ko.map fun k => { k with pw := p, salt := q } } =
      .next { t with ko := t.ko.map fun k => { k with pw := p', salt := q' } }

/-- For every row, L bytes E and byte h, pack has N indices, and index j is the sum over t in 0..10 of B[11j+t] *
2^(10-t), where B[p] is bit 7 - (p mod 8) of E[p/8] for p below 8L and B[8L+k] is bit 7-k of h for k below CS.
Formalises R140. -/
def Obligations.PackReadsBitsMostSignificantFirst : Prop :=
  ∀ (r : LengthRow) (E : List Byte) (h : Byte), r ∈ lengthTable → E.length = r.len →
    (pack r E h).length = r.words ∧
    ∀ B : Nat → Bool, (∀ p, p < 8 * r.len → B p = (E.getD (p / 8) 0#8).getLsbD (7 - p % 8)) →
      (∀ k, k < r.cs → B (8 * r.len + k) = h.getLsbD (7 - k)) →
      ∀ j, j < r.words →
        ((pack r E h).getD j 0#11).toNat = ((List.range 11).map fun t => (B (11 * j + t)).toNat * 2 ^ (10 - t)).sum

/-- For every row and N indices I, with B[11j+t] = bit 10-t of I[j]: unpack gives L bytes, byte i being the sum over u in
0..7 of B[8i+u] * 2^(7-u), and the integer c that is the sum over k below CS of B[8L+k] * 2^(CS-1-k). Formalises R141. -/
def Obligations.UnpackReadsBitsMostSignificantFirst : Prop :=
  ∀ (r : LengthRow) (I : List Index), r ∈ lengthTable → I.length = r.words →
    (unpackEntropy r I).length = r.len ∧
    ∀ B : Nat → Bool, (∀ j t, j < r.words → t ≤ 10 → B (11 * j + t) = (I.getD j 0#11).getLsbD (10 - t)) →
      (∀ i, i < r.len → ((unpackEntropy r I).getD i 0#8).toNat =
        ((List.range 8).map fun u => (B (8 * i + u)).toNat * 2 ^ (7 - u)).sum) ∧
      (unpackChecksum r I).toNat =
        ((List.range r.cs).map fun k => (B (8 * r.len + k)).toNat * 2 ^ (r.cs - 1 - k)).sum

/-- For every row: pack(L, E, h) lists (S >> 11(N-1-j)) & 0x7FF for j in 0..N-1 with S = (be(E) << CS) | (h >> (8-CS));
and with S the sum of I[j] << 11(N-1-j) and W = S >> CS, unpack(N, I) gives the bytes (W >> 8(L-1-i)) & 0xFF and the
checksum S & (2^CS - 1). Derived from 43_pack_unpack.md section 1 (R142). -/
def Obligations.PackAndUnpackEqualTheirIntegerForms : Prop :=
  ∀ r : LengthRow, r ∈ lengthTable →
    (∀ (E : List Byte) (h : Byte), E.length = r.len →
      (pack r E h).map BitVec.toNat = (List.range r.words).map fun j =>
        ((bigEndian E <<< r.cs ||| h.toNat >>> (8 - r.cs)) >>> (11 * (r.words - 1 - j))) &&& 0x7FF) ∧
    (∀ (I : List Index) (S : Nat), I.length = r.words →
      S = ((List.range r.words).map fun j => (I.getD j 0#11).toNat <<< (11 * (r.words - 1 - j))).sum →
      (unpackEntropy r I).map BitVec.toNat =
          (List.range r.len).map (fun i => ((S >>> r.cs) >>> (8 * (r.len - 1 - i))) &&& 0xFF) ∧
        (unpackChecksum r I).toNat = S &&& (2 ^ r.cs - 1))

/-- For every row, every E of L bytes and every byte h, unpack of pack(L, E, h) is E with the checksum h >> (8 - CS): the
source's round-trip property. Derived from 43_pack_unpack.md section 1 (R143 a). -/
def Obligations.UnpackOfPackIsTheEntropyAndChecksum : Prop :=
  ∀ (r : LengthRow) (E : List Byte) (h : Byte), r ∈ lengthTable → E.length = r.len →
    unpackEntropy r (pack r E h) = E ∧ unpackChecksum r (pack r E h) = h >>> (8 - r.cs)

/-- For every row, every I of N indices and every byte h whose top CS bits are the checksum of unpack(N, I), pack of the
unpacked entropy and h is I again; with the other direction, pack and unpack are inverse bijections. Derived from
43_pack_unpack.md section 1 (R143 b). -/
def Obligations.PackOfUnpackIsTheSentence : Prop :=
  ∀ (r : LengthRow) (I : List Index) (h : Byte), r ∈ lengthTable → I.length = r.words →
    h >>> (8 - r.cs) = unpackChecksum r I → pack r (unpackEntropy r I) h = I

/-- For every row, E of L bytes and bytes h, h': pack agrees on every index below N-1 for h and h'; and index N-1 is
((be(E) & (2^(11-CS) - 1)) << CS) | (h >> (8 - CS)). Derived from 43_pack_unpack.md section 1 (R143 d). -/
def Obligations.OnlyTheLastIndexCarriesTheChecksum : Prop :=
  ∀ (r : LengthRow) (E : List Byte) (h h' : Byte), r ∈ lengthTable → E.length = r.len →
    (∀ j, j < r.words - 1 → (pack r E h)[j]? = (pack r E h')[j]?) ∧
    ((pack r E h).getD (r.words - 1) 0#11).toNat =
      ((bigEndian E &&& (2 ^ (11 - r.cs) - 1)) <<< r.cs) ||| h.toNat >>> (8 - r.cs)

/-- In every block that is not faulted with a length selected, PACK then UNPACK leaves ENT as it was and CSX = HASH0 >> (8
- CS), and CHK then sets MATCH to 1 and answers 1. Derived from 43_pack_unpack.md section 2 (R145, corner cases);
95_test_vectors.md V3. -/
def Obligations.PackUnpackChkRoundTrip : Prop :=
  ∀ (s : State) (r : LengthRow), s.err = 0#4 → lengthRow s.sel = some r →
    ∃ t u v, exec .pack s = .next t ∧ exec .unpack t = .next u ∧ exec .chk u = .next v ∧
      u.ent = s.ent ∧ u.csx = s.hash0 >>> (8 - r.cs) ∧ v.matched = true ∧ v.output.head? = some 1#32

/-- For every PRF, password and salt, byte k of kdf is the exclusive-or of byte k of the 2048 outputs U1 .. U2048, where
U1 = PRF(P, S ++ 00 00 00 01) and each later U is PRF(P, the U before). The round structure is the spec's own, from
general knowledge (G1). Derived from 44_kdf_orchestrator.md (R164); 93_implementation_defined.md G1;
notes/assumptions/10.md. -/
def Obligations.KdfIsTheExclusiveOrOfAllOutputs : Prop :=
  ∀ (prf : List Byte → List Byte → Block) (P S : List Byte) (k : Nat), k < 64 →
    (kdf prf P S)[k]? =
      some ((List.range 2048).foldl (fun x i => x ^^^ (prfOutput prf P S i).getD k 0#8) 0#8)

/-- With a PRF that answers one constant block, kdf is 64 zero bytes for every password and salt (K5); with the PRF whose
every byte is (len(k) + len(m)) mod 256, every byte of kdf is ((len P + len S + 4) mod 256) xor ((len P + 64) mod 256)
(K6). The round structure is the spec's own, from general knowledge (G1). Derived from 95_test_vectors.md section 6
(K5, K6); notes/assumptions/10.md. -/
def Obligations.KdfOfToyKeyedHashes : Prop :=
  ∀ P S : List Byte,
    (∀ c : Block, kdf (fun _ _ => c) P S = Vector.replicate 64 0#8) ∧
    kdf (fun k m => Vector.replicate 64 (BitVec.ofNat 8 (k.length + m.length))) P S =
      Vector.replicate 64 (BitVec.ofNat 8 (P.length + S.length + 4) ^^^ BitVec.ofNat 8 (P.length + 64))

/-- If the assembler accepts a text, every word it emits, also those a pseudo-instruction expands to, decodes to a well-
formed command: it never emits a word with a reserved opcode or a must-be-zero bit set. Derived from 30_encoding.md
section 7, Assembler syntax (R88, R89); notes/assumptions/13.md. -/
def Obligations.AssemblerEmitsOnlyCommandWords : Prop :=
  ∀ (z : BufferSizes) (text : String) (ws : List Word), assemble z text = some ws →
    ∀ w ∈ ws, ∃ i : Instr, decode w = .command i ∧ i.WellFormed

/-- In a block that is not faulted, with operand counts R89 allows: the commands of LDENT and LDIDX leave their bytes and
indices at addresses 0, 1, ... and the rest of the buffer as it was, MATCH 0; those of RDENT n and RDIDX n, n within
the buffer, only return elements 0 to n-1 in order; with the KO, those of KLDPW and KLDSALT set the length and leave
their bytes from address 0 up, KDONE and SEED cleared; those of KRDSEED while KDONE is 1 only return the 64 bytes of
SEED in order. PW and SALT are in their canonical form, an invariant of the model. Derived from 30_encoding.md section
7, Assembler syntax (R89); 42_buffer_access.md (R120, R121, R123, R124); 44_kdf_orchestrator.md (R160 to R163, R166);
notes/assumptions/9.md. -/
def Obligations.PseudoInstructionsLoadAndReadTheBuffers : Prop :=
  ∀ (z : BufferSizes) (b : BlockState), b.err = 0#4 →
    (∀ bs : List Byte, 1 ≤ bs.length → bs.length ≤ 32 → ∃ E : Vector Byte 32,
      runCommands z (Pseudo.ldent bs).expand b = ({ b with ent := E, matched := false }, List.replicate bs.length 0#32) ∧
      (∀ j, j < bs.length → E[j]? = bs[j]?) ∧ ∀ j, bs.length ≤ j → E[j]? = b.ent[j]?) ∧
    (∀ vs : List Index, 1 ≤ vs.length → vs.length ≤ 24 → ∃ V : Vector Index 24,
      runCommands z (Pseudo.ldidx vs).expand b = ({ b with idx := V, matched := false }, List.replicate vs.length 0#32) ∧
      (∀ j, j < vs.length → V[j]? = vs[j]?) ∧ ∀ j, vs.length ≤ j → V[j]? = b.idx[j]?) ∧
    (∀ n, n ≤ 32 → runCommands z (Pseudo.rdent n).expand b = (b, (b.ent.toList.take n).map (BitVec.setWidth 32))) ∧
    (∀ n, n ≤ 24 → runCommands z (Pseudo.rdidx n).expand b = (b, (b.idx.toList.take n).map (BitVec.setWidth 32))) ∧
    ∀ k : KoState, b.ko = some k →
      (z.wf → k.pw.wf → ∀ bs : List Byte, bs.length ≤ z.pwMax → ∃ (n : BitVec 12) (m : Memory),
        runCommands z (Pseudo.kldpw bs).expand b =
          ({ b with ko := some { k with pwLen := n, pw := m, kdone := false, seed := Vector.replicate 64 0#8 } },
            List.replicate (bs.length + 1) 0#32) ∧
        n.toNat = bs.length ∧ m.bytes bs.length = bs ∧ ∀ x, bs.length ≤ x → m.read x = k.pw.read x) ∧
      (z.wf → k.salt.wf → ∀ bs : List Byte, bs.length ≤ z.saltMax → ∃ (n : BitVec 12) (m : Memory),
        runCommands z (Pseudo.kldsalt bs).expand b =
          ({ b with ko := some { k with saltLen := n, salt := m, kdone := false, seed := Vector.replicate 64 0#8 } },
            List.replicate (bs.length + 1) 0#32) ∧
        n.toNat = bs.length ∧ m.bytes bs.length = bs ∧ ∀ x, bs.length ≤ x → m.read x = k.salt.read x) ∧
      (k.kdone = true → runCommands z Pseudo.krdseed.expand b = (b, k.seed.toList.map (BitVec.setWidth 32)))
end

