-- ==== Sys2Proof/Laws/Bits.lean ====
section
/-! SUPPORT. The bits of a field read from a bit string, the sequences `pack` and `unpack` return, and storing a
sequence in a buffer. -/

namespace Sys2Proof.Machine

/-- Bit `i` of the field, counted from the least significant, is bit `w - 1 - i` of the string (R7). -/
theorem bitField_getLsbD (w : Nat) (f : Nat → Bool) (i : Nat) :
    (bitField w f).getLsbD i = (decide (i < w) && f (w - 1 - i)) := by
  induction w generalizing i with
  | zero => simp [bitField]
  | succ w ih =>
    rw [bitField, BitVec.getLsbD_concat]
    cases i with
    | zero => simp
    | succ i =>
      have : w - 1 - i = w + 1 - 1 - (i + 1) := by omega
      simp [ih, this]

/-- A field depends on its own bits of the string only. -/
theorem bitField_congr {w : Nat} {f g : Nat → Bool} (h : ∀ p < w, f p = g p) : bitField w f = bitField w g := by
  induction w with
  | zero => rfl
  | succ w ih => rw [bitField, bitField, ih fun p hp => h p (by omega), h w (by omega)]

/-- A number is the field read from its own bits. -/
theorem bitField_of_bits {w : Nat} (x : BitVec w) : (bitField w fun p => x.getLsbD (w - 1 - p)) = x := by
  apply BitVec.eq_of_getLsbD_eq
  intro i hi
  rw [bitField_getLsbD, decide_eq_true hi, Bool.true_and]
  congr 1
  omega

@[simp] theorem pack_length (r : LengthRow) (E : List Byte) (h : Byte) : (pack r E h).length = r.words := by
  simp [pack]

@[simp] theorem unpackEntropy_length (r : LengthRow) (I : List Index) : (unpackEntropy r I).length = r.len := by
  simp [unpackEntropy]

theorem pack_getElem? (r : LengthRow) (E : List Byte) (h : Byte) {j : Nat} (hj : j < r.words) :
    (pack r E h)[j]? = some (bitField 11 fun t => packStream r E h (11 * j + t)) := by
  simp [pack, hj]

theorem unpackEntropy_getElem? (r : LengthRow) (I : List Index) {i : Nat} (hi : i < r.len) :
    (unpackEntropy r I)[i]? = some (bitField 8 fun u => unpackStream I (8 * i + u)) := by
  simp [unpackEntropy, hi]

/-- The elements a stored sequence covers. -/
theorem storeFirst_getElem?_lt {α : Type} {n : Nat} (buf : Vector α n) (xs : List α) {i : Nat} (hi : i < xs.length)
    (hn : xs.length ≤ n) : (storeFirst buf xs)[i]? = xs[i]? := by
  have h : (xs.take n ++ buf.toList.drop xs.length)[i]? = xs[i]? := by
    rw [List.take_of_length_le hn, List.getElem?_append_left hi]
  simpa [storeFirst] using h

/-- The elements a stored sequence leaves alone. -/
theorem storeFirst_getElem?_ge {α : Type} {n : Nat} (buf : Vector α n) (xs : List α) {i : Nat} (hi : xs.length ≤ i) :
    (storeFirst buf xs)[i]? = buf[i]? := by
  have h : (xs.take n ++ buf.toList.drop xs.length)[i]? = buf.toList[i]? := by
    by_cases hn : xs.length ≤ n
    · rw [List.take_of_length_le hn, List.getElem?_append_right hi, List.getElem?_drop]
      congr 1
      omega
    · have h1 : n ≤ i := by omega
      rw [List.getElem?_eq_none (by simp; omega), List.getElem?_eq_none (by simpa using h1)]
  simpa [storeFirst] using h

end Sys2Proof.Machine
end

