-- ==== Sys2Proof/Laws/Memory.lean ====
section
/-! SUPPORT. The laws of `PW` and `SALT` as memories: what a write leaves at each address, and that every operation
keeps the canonical form and the addresses in range. -/

namespace Sys2Proof.Machine

@[simp] theorem Memory.read_nil (a : Nat) : Memory.read [] a = 0#8 := rfl

@[simp] theorem Memory.read_cons (k : Nat) (v : Byte) (m : Memory) (a : Nat) :
    Memory.read ((k, v) :: m) a = if k = a then v else Memory.read m a := rfl

theorem Memory.wf_nil : Memory.wf [] := by simp [Memory.wf]

theorem Memory.wf_cons {k : Nat} {v : Byte} {m : Memory} :
    Memory.wf ((k, v) :: m) ↔ (∀ c ∈ m, k < c.1) ∧ v ≠ 0#8 ∧ Memory.wf m := by
  simp only [Memory.wf, List.map_cons, List.pairwise_cons, List.mem_map, List.mem_cons,
    forall_eq_or_imp]
  constructor
  · rintro ⟨⟨h1, h2⟩, h3, h4⟩
    exact ⟨fun c hc => h1 _ ⟨c, hc, rfl⟩, h3, h2, h4⟩
  · rintro ⟨h1, h3, h2, h4⟩
    refine ⟨⟨?_, h2⟩, h3, h4⟩
    rintro _ ⟨c, hc, rfl⟩
    exact h1 c hc

/-- An address below every listed one is not listed. -/
theorem Memory.read_of_lt {m : Memory} {a : Nat} (h : ∀ c ∈ m, a < c.1) : m.read a = 0#8 := by
  induction m with
  | nil => rfl
  | cons c m ih =>
    have h0 := h c (by simp)
    rw [Memory.read_cons, if_neg (by omega), ih fun d hd => h d (by simp [hd])]

theorem Memory.read_write_other (m : Memory) {a x : Nat} (b : Byte) (h : x ≠ a) :
    (m.write a b).read x = m.read x := by
  induction m with
  | nil => by_cases hb : b = 0#8 <;> simp [Memory.write, hb, h.symm]
  | cons c m ih =>
    obtain ⟨k, v⟩ := c
    by_cases h1 : a < k
    · by_cases hb : b = 0#8 <;> simp [Memory.write, h1, hb, h.symm]
    · by_cases h2 : a = k
      · subst h2
        by_cases hb : b = 0#8 <;> simp [Memory.write, hb, h.symm]
      · simp [Memory.write, h1, h2, ih]

theorem Memory.read_write_same {m : Memory} (hm : m.wf) (a : Nat) (b : Byte) :
    (m.write a b).read a = b := by
  induction m with
  | nil => by_cases hb : b = 0#8 <;> simp [Memory.write, hb]
  | cons c m ih =>
    obtain ⟨k, v⟩ := c
    obtain ⟨hk, -, hm'⟩ := Memory.wf_cons.mp hm
    by_cases h1 : a < k
    · by_cases hb : b = 0#8
      · have : Memory.read m a = 0#8 := Memory.read_of_lt fun c hc => Nat.lt_trans h1 (hk c hc)
        simp [Memory.write, h1, hb, this, Nat.ne_of_gt h1]
      · simp [Memory.write, h1, hb]
    · by_cases h2 : a = k
      · subst h2
        by_cases hb : b = 0#8
        · simp [Memory.write, hb, Memory.read_of_lt hk]
        · simp [Memory.write, hb]
      · simp [Memory.write, h1, h2, Ne.symm h2, ih hm']

/-- A write lists no address but the old ones and the one written. -/
theorem Memory.mem_write {m : Memory} {a : Nat} {b : Byte} {c : Host.Cell} (h : c ∈ m.write a b) :
    c = (a, b) ∨ c ∈ m := by
  induction m with
  | nil => by_cases hb : b = 0#8 <;> simp_all [Memory.write]
  | cons d m ih =>
    obtain ⟨k, v⟩ := d
    unfold Memory.write at h
    split at h
    · split at h
      · exact .inr h
      · exact List.mem_cons.mp h
    · split at h
      · split at h
        · exact .inr (by simp [h])
        · rcases List.mem_cons.mp h with h | h
          · exact .inl h
          · exact .inr (by simp [h])
      · rcases List.mem_cons.mp h with h | h
        · exact .inr (by simp [h])
        · exact (ih h).imp id fun h => by simp [h]

theorem Memory.write_wf {m : Memory} (hm : m.wf) (a : Nat) (b : Byte) : (m.write a b).wf := by
  induction m with
  | nil => by_cases hb : b = 0#8 <;> simp [Memory.write, hb, Memory.wf]
  | cons c m ih =>
    obtain ⟨k, v⟩ := c
    obtain ⟨hk, hv, hm'⟩ := Memory.wf_cons.mp hm
    unfold Memory.write
    split
    · rename_i h1
      split
      · exact hm
      · rename_i hb
        exact Memory.wf_cons.mpr ⟨by
          rintro c hc
          rcases List.mem_cons.mp hc with rfl | hc
          · exact h1
          · exact Nat.lt_trans h1 (hk c hc), hb, hm⟩
    · split
      · rename_i h1 h2
        subst h2
        split
        · exact hm'
        · rename_i hb
          exact Memory.wf_cons.mpr ⟨hk, hb, hm'⟩
      · rename_i h1 h2
        refine Memory.wf_cons.mpr ⟨?_, hv, ih hm'⟩
        intro c hc
        rcases Memory.mem_write hc with rfl | hc
        · show k < a
          omega
        · exact hk c hc

theorem Memory.write_bound {m : Memory} {n a : Nat} {b : Byte} (h : ∀ c ∈ m, c.1 < n) (ha : a < n) :
    ∀ c ∈ m.write a b, c.1 < n := by
  intro c hc
  rcases Memory.mem_write hc with rfl | hc
  · exact ha
  · exact h c hc

@[simp] theorem Memory.bytes_length (m : Memory) (n : Nat) : (m.bytes n).length = n := by
  simp [Memory.bytes]

/-- A sequence of bytes depends on the reads of its addresses only. -/
theorem Memory.bytes_congr {m m' : Memory} {n : Nat} (h : ∀ x < n, m.read x = m'.read x) :
    m.bytes n = m'.bytes n :=
  List.map_congr_left fun x hx => h x (List.mem_range.mp hx)

end Sys2Proof.Machine
end

