-- ==== Sys2Proof/Laws/State.lean ====
section
/-! SUPPORT. What each update of the state leaves in each field, true by unfolding, for simp. -/

namespace Sys2Proof.Machine

@[simp] theorem State.setSel_ent (s : State) (v : BitVec 3) : (s.setSel v).ent = s.ent := rfl
@[simp] theorem State.setSel_idx (s : State) (v : BitVec 3) : (s.setSel v).idx = s.idx := rfl
@[simp] theorem State.setSel_sel (s : State) (v : BitVec 3) : (s.setSel v).sel = v := rfl
@[simp] theorem State.setSel_hash0 (s : State) (v : BitVec 3) : (s.setSel v).hash0 = s.hash0 := rfl
@[simp] theorem State.setSel_csx (s : State) (v : BitVec 3) : (s.setSel v).csx = s.csx := rfl
@[simp] theorem State.setSel_matched (s : State) (v : BitVec 3) : (s.setSel v).matched = s.matched := rfl
@[simp] theorem State.setSel_err (s : State) (v : BitVec 3) : (s.setSel v).err = s.err := rfl
@[simp] theorem State.setSel_ko (s : State) (v : BitVec 3) : (s.setSel v).ko = s.ko := rfl
@[simp] theorem State.setSel_sizes (s : State) (v : BitVec 3) : (s.setSel v).sizes = s.sizes := rfl
@[simp] theorem State.setSel_input (s : State) (v : BitVec 3) : (s.setSel v).input = s.input := rfl
@[simp] theorem State.setSel_output (s : State) (v : BitVec 3) : (s.setSel v).output = s.output := rfl

@[simp] theorem State.setEnt_ent (s : State) (v : Vector Byte 32) : (s.setEnt v).ent = v := rfl
@[simp] theorem State.setEnt_idx (s : State) (v : Vector Byte 32) : (s.setEnt v).idx = s.idx := rfl
@[simp] theorem State.setEnt_sel (s : State) (v : Vector Byte 32) : (s.setEnt v).sel = s.sel := rfl
@[simp] theorem State.setEnt_hash0 (s : State) (v : Vector Byte 32) : (s.setEnt v).hash0 = s.hash0 := rfl
@[simp] theorem State.setEnt_csx (s : State) (v : Vector Byte 32) : (s.setEnt v).csx = s.csx := rfl
@[simp] theorem State.setEnt_matched (s : State) (v : Vector Byte 32) : (s.setEnt v).matched = s.matched := rfl
@[simp] theorem State.setEnt_err (s : State) (v : Vector Byte 32) : (s.setEnt v).err = s.err := rfl
@[simp] theorem State.setEnt_ko (s : State) (v : Vector Byte 32) : (s.setEnt v).ko = s.ko := rfl
@[simp] theorem State.setEnt_sizes (s : State) (v : Vector Byte 32) : (s.setEnt v).sizes = s.sizes := rfl
@[simp] theorem State.setEnt_input (s : State) (v : Vector Byte 32) : (s.setEnt v).input = s.input := rfl
@[simp] theorem State.setEnt_output (s : State) (v : Vector Byte 32) : (s.setEnt v).output = s.output := rfl

@[simp] theorem State.setIdx_ent (s : State) (v : Vector Index 24) : (s.setIdx v).ent = s.ent := rfl
@[simp] theorem State.setIdx_idx (s : State) (v : Vector Index 24) : (s.setIdx v).idx = v := rfl
@[simp] theorem State.setIdx_sel (s : State) (v : Vector Index 24) : (s.setIdx v).sel = s.sel := rfl
@[simp] theorem State.setIdx_hash0 (s : State) (v : Vector Index 24) : (s.setIdx v).hash0 = s.hash0 := rfl
@[simp] theorem State.setIdx_csx (s : State) (v : Vector Index 24) : (s.setIdx v).csx = s.csx := rfl
@[simp] theorem State.setIdx_matched (s : State) (v : Vector Index 24) : (s.setIdx v).matched = s.matched := rfl
@[simp] theorem State.setIdx_err (s : State) (v : Vector Index 24) : (s.setIdx v).err = s.err := rfl
@[simp] theorem State.setIdx_ko (s : State) (v : Vector Index 24) : (s.setIdx v).ko = s.ko := rfl
@[simp] theorem State.setIdx_sizes (s : State) (v : Vector Index 24) : (s.setIdx v).sizes = s.sizes := rfl
@[simp] theorem State.setIdx_input (s : State) (v : Vector Index 24) : (s.setIdx v).input = s.input := rfl
@[simp] theorem State.setIdx_output (s : State) (v : Vector Index 24) : (s.setIdx v).output = s.output := rfl

@[simp] theorem State.setHash0_ent (s : State) (v : Byte) : (s.setHash0 v).ent = s.ent := rfl
@[simp] theorem State.setHash0_idx (s : State) (v : Byte) : (s.setHash0 v).idx = s.idx := rfl
@[simp] theorem State.setHash0_sel (s : State) (v : Byte) : (s.setHash0 v).sel = s.sel := rfl
@[simp] theorem State.setHash0_hash0 (s : State) (v : Byte) : (s.setHash0 v).hash0 = v := rfl
@[simp] theorem State.setHash0_csx (s : State) (v : Byte) : (s.setHash0 v).csx = s.csx := rfl
@[simp] theorem State.setHash0_matched (s : State) (v : Byte) : (s.setHash0 v).matched = s.matched := rfl
@[simp] theorem State.setHash0_err (s : State) (v : Byte) : (s.setHash0 v).err = s.err := rfl
@[simp] theorem State.setHash0_ko (s : State) (v : Byte) : (s.setHash0 v).ko = s.ko := rfl
@[simp] theorem State.setHash0_sizes (s : State) (v : Byte) : (s.setHash0 v).sizes = s.sizes := rfl
@[simp] theorem State.setHash0_input (s : State) (v : Byte) : (s.setHash0 v).input = s.input := rfl
@[simp] theorem State.setHash0_output (s : State) (v : Byte) : (s.setHash0 v).output = s.output := rfl

@[simp] theorem State.setCsx_ent (s : State) (v : Byte) : (s.setCsx v).ent = s.ent := rfl
@[simp] theorem State.setCsx_idx (s : State) (v : Byte) : (s.setCsx v).idx = s.idx := rfl
@[simp] theorem State.setCsx_sel (s : State) (v : Byte) : (s.setCsx v).sel = s.sel := rfl
@[simp] theorem State.setCsx_hash0 (s : State) (v : Byte) : (s.setCsx v).hash0 = s.hash0 := rfl
@[simp] theorem State.setCsx_csx (s : State) (v : Byte) : (s.setCsx v).csx = v := rfl
@[simp] theorem State.setCsx_matched (s : State) (v : Byte) : (s.setCsx v).matched = s.matched := rfl
@[simp] theorem State.setCsx_err (s : State) (v : Byte) : (s.setCsx v).err = s.err := rfl
@[simp] theorem State.setCsx_ko (s : State) (v : Byte) : (s.setCsx v).ko = s.ko := rfl
@[simp] theorem State.setCsx_sizes (s : State) (v : Byte) : (s.setCsx v).sizes = s.sizes := rfl
@[simp] theorem State.setCsx_input (s : State) (v : Byte) : (s.setCsx v).input = s.input := rfl
@[simp] theorem State.setCsx_output (s : State) (v : Byte) : (s.setCsx v).output = s.output := rfl

@[simp] theorem State.setMatched_ent (s : State) (v : Bool) : (s.setMatched v).ent = s.ent := rfl
@[simp] theorem State.setMatched_idx (s : State) (v : Bool) : (s.setMatched v).idx = s.idx := rfl
@[simp] theorem State.setMatched_sel (s : State) (v : Bool) : (s.setMatched v).sel = s.sel := rfl
@[simp] theorem State.setMatched_hash0 (s : State) (v : Bool) : (s.setMatched v).hash0 = s.hash0 := rfl
@[simp] theorem State.setMatched_csx (s : State) (v : Bool) : (s.setMatched v).csx = s.csx := rfl
@[simp] theorem State.setMatched_matched (s : State) (v : Bool) : (s.setMatched v).matched = v := rfl
@[simp] theorem State.setMatched_err (s : State) (v : Bool) : (s.setMatched v).err = s.err := rfl
@[simp] theorem State.setMatched_ko (s : State) (v : Bool) : (s.setMatched v).ko = s.ko := rfl
@[simp] theorem State.setMatched_sizes (s : State) (v : Bool) : (s.setMatched v).sizes = s.sizes := rfl
@[simp] theorem State.setMatched_input (s : State) (v : Bool) : (s.setMatched v).input = s.input := rfl
@[simp] theorem State.setMatched_output (s : State) (v : Bool) : (s.setMatched v).output = s.output := rfl

@[simp] theorem State.setErr_ent (s : State) (v : BitVec 4) : (s.setErr v).ent = s.ent := rfl
@[simp] theorem State.setErr_idx (s : State) (v : BitVec 4) : (s.setErr v).idx = s.idx := rfl
@[simp] theorem State.setErr_sel (s : State) (v : BitVec 4) : (s.setErr v).sel = s.sel := rfl
@[simp] theorem State.setErr_hash0 (s : State) (v : BitVec 4) : (s.setErr v).hash0 = s.hash0 := rfl
@[simp] theorem State.setErr_csx (s : State) (v : BitVec 4) : (s.setErr v).csx = s.csx := rfl
@[simp] theorem State.setErr_matched (s : State) (v : BitVec 4) : (s.setErr v).matched = s.matched := rfl
@[simp] theorem State.setErr_err (s : State) (v : BitVec 4) : (s.setErr v).err = v := rfl
@[simp] theorem State.setErr_ko (s : State) (v : BitVec 4) : (s.setErr v).ko = s.ko := rfl
@[simp] theorem State.setErr_sizes (s : State) (v : BitVec 4) : (s.setErr v).sizes = s.sizes := rfl
@[simp] theorem State.setErr_input (s : State) (v : BitVec 4) : (s.setErr v).input = s.input := rfl
@[simp] theorem State.setErr_output (s : State) (v : BitVec 4) : (s.setErr v).output = s.output := rfl

@[simp] theorem State.setInput_sizes (s : State) (v : List PortEvent) : (s.setInput v).sizes = s.sizes := rfl
@[simp] theorem State.setInput_input (s : State) (v : List PortEvent) : (s.setInput v).input = v := rfl
@[simp] theorem State.setInput_output (s : State) (v : List PortEvent) : (s.setInput v).output = s.output := rfl

@[simp] theorem State.setKo_ent (s : State) (k : KoState) : (s.setKo k).ent = s.ent := rfl
@[simp] theorem State.setKo_idx (s : State) (k : KoState) : (s.setKo k).idx = s.idx := rfl
@[simp] theorem State.setKo_sel (s : State) (k : KoState) : (s.setKo k).sel = s.sel := rfl
@[simp] theorem State.setKo_hash0 (s : State) (k : KoState) : (s.setKo k).hash0 = s.hash0 := rfl
@[simp] theorem State.setKo_csx (s : State) (k : KoState) : (s.setKo k).csx = s.csx := rfl
@[simp] theorem State.setKo_matched (s : State) (k : KoState) : (s.setKo k).matched = s.matched := rfl
@[simp] theorem State.setKo_err (s : State) (k : KoState) : (s.setKo k).err = s.err := rfl
@[simp] theorem State.setKo_ko (s : State) (k : KoState) : (s.setKo k).ko = some k := rfl
@[simp] theorem State.setKo_sizes (s : State) (k : KoState) : (s.setKo k).sizes = s.sizes := rfl
@[simp] theorem State.setKo_input (s : State) (k : KoState) : (s.setKo k).input = s.input := rfl
@[simp] theorem State.setKo_output (s : State) (k : KoState) : (s.setKo k).output = s.output := rfl

@[simp] theorem State.clearMatch_ent (s : State) : s.clearMatch.ent = s.ent := rfl
@[simp] theorem State.clearMatch_idx (s : State) : s.clearMatch.idx = s.idx := rfl
@[simp] theorem State.clearMatch_sel (s : State) : s.clearMatch.sel = s.sel := rfl
@[simp] theorem State.clearMatch_hash0 (s : State) : s.clearMatch.hash0 = s.hash0 := rfl
@[simp] theorem State.clearMatch_csx (s : State) : s.clearMatch.csx = s.csx := rfl
@[simp] theorem State.clearMatch_matched (s : State) : s.clearMatch.matched = false := rfl
@[simp] theorem State.clearMatch_err (s : State) : s.clearMatch.err = s.err := rfl
@[simp] theorem State.clearMatch_ko (s : State) : s.clearMatch.ko = s.ko := rfl
@[simp] theorem State.clearMatch_sizes (s : State) : s.clearMatch.sizes = s.sizes := rfl
@[simp] theorem State.clearMatch_input (s : State) : s.clearMatch.input = s.input := rfl
@[simp] theorem State.clearMatch_output (s : State) : s.clearMatch.output = s.output := rfl

@[simp] theorem State.clear_sizes (s : State) : s.clear.sizes = s.sizes := rfl
@[simp] theorem State.clear_input (s : State) : s.clear.input = s.input := rfl
@[simp] theorem State.clear_output (s : State) : s.clear.output = s.output := rfl

@[simp] theorem respond_sizes (v : Word) (s : State) : (respond v s).sizes = s.sizes := rfl
@[simp] theorem respond_input (v : Word) (s : State) : (respond v s).input = s.input := rfl
@[simp] theorem respond_output (v : Word) (s : State) : (respond v s).output = v :: s.output := rfl

@[simp] theorem raise_ent (c : Cause) (s : State) : (raise c s).ent = s.ent := rfl
@[simp] theorem raise_idx (c : Cause) (s : State) : (raise c s).idx = s.idx := rfl
@[simp] theorem raise_sel (c : Cause) (s : State) : (raise c s).sel = s.sel := rfl
@[simp] theorem raise_hash0 (c : Cause) (s : State) : (raise c s).hash0 = s.hash0 := rfl
@[simp] theorem raise_csx (c : Cause) (s : State) : (raise c s).csx = s.csx := rfl
@[simp] theorem raise_matched (c : Cause) (s : State) : (raise c s).matched = s.matched := rfl
@[simp] theorem raise_err (c : Cause) (s : State) : (raise c s).err = causeCode c := rfl
@[simp] theorem raise_ko (c : Cause) (s : State) : (raise c s).ko = s.ko := rfl
@[simp] theorem raise_sizes (c : Cause) (s : State) : (raise c s).sizes = s.sizes := rfl
@[simp] theorem raise_input (c : Cause) (s : State) : (raise c s).input = s.input := rfl
@[simp] theorem raise_output (c : Cause) (s : State) : (raise c s).output = faultResponse :: s.output := rfl

@[simp] theorem ignored_sizes (s : State) : (ignored s).sizes = s.sizes := rfl
@[simp] theorem ignored_input (s : State) : (ignored s).input = s.input := rfl
@[simp] theorem ignored_output (s : State) : (ignored s).output = faultResponse :: s.output := rfl

@[simp] theorem KoState.setPwLen_pwLen (k : KoState) (v : BitVec 12) : (k.setPwLen v).pwLen = v := rfl
@[simp] theorem KoState.setPwLen_saltLen (k : KoState) (v : BitVec 12) : (k.setPwLen v).saltLen = k.saltLen := rfl
@[simp] theorem KoState.setPwLen_pw (k : KoState) (v : BitVec 12) : (k.setPwLen v).pw = k.pw := rfl
@[simp] theorem KoState.setPwLen_salt (k : KoState) (v : BitVec 12) : (k.setPwLen v).salt = k.salt := rfl
@[simp] theorem KoState.setPwLen_seed (k : KoState) (v : BitVec 12) : (k.setPwLen v).seed = k.seed := rfl
@[simp] theorem KoState.setPwLen_kdone (k : KoState) (v : BitVec 12) : (k.setPwLen v).kdone = k.kdone := rfl

@[simp] theorem KoState.setSaltLen_pwLen (k : KoState) (v : BitVec 12) : (k.setSaltLen v).pwLen = k.pwLen := rfl
@[simp] theorem KoState.setSaltLen_saltLen (k : KoState) (v : BitVec 12) : (k.setSaltLen v).saltLen = v := rfl
@[simp] theorem KoState.setSaltLen_pw (k : KoState) (v : BitVec 12) : (k.setSaltLen v).pw = k.pw := rfl
@[simp] theorem KoState.setSaltLen_salt (k : KoState) (v : BitVec 12) : (k.setSaltLen v).salt = k.salt := rfl
@[simp] theorem KoState.setSaltLen_seed (k : KoState) (v : BitVec 12) : (k.setSaltLen v).seed = k.seed := rfl
@[simp] theorem KoState.setSaltLen_kdone (k : KoState) (v : BitVec 12) : (k.setSaltLen v).kdone = k.kdone := rfl

@[simp] theorem KoState.setPw_pwLen (k : KoState) (v : Memory) : (k.setPw v).pwLen = k.pwLen := rfl
@[simp] theorem KoState.setPw_saltLen (k : KoState) (v : Memory) : (k.setPw v).saltLen = k.saltLen := rfl
@[simp] theorem KoState.setPw_pw (k : KoState) (v : Memory) : (k.setPw v).pw = v := rfl
@[simp] theorem KoState.setPw_salt (k : KoState) (v : Memory) : (k.setPw v).salt = k.salt := rfl
@[simp] theorem KoState.setPw_seed (k : KoState) (v : Memory) : (k.setPw v).seed = k.seed := rfl
@[simp] theorem KoState.setPw_kdone (k : KoState) (v : Memory) : (k.setPw v).kdone = k.kdone := rfl

@[simp] theorem KoState.setSalt_pwLen (k : KoState) (v : Memory) : (k.setSalt v).pwLen = k.pwLen := rfl
@[simp] theorem KoState.setSalt_saltLen (k : KoState) (v : Memory) : (k.setSalt v).saltLen = k.saltLen := rfl
@[simp] theorem KoState.setSalt_pw (k : KoState) (v : Memory) : (k.setSalt v).pw = k.pw := rfl
@[simp] theorem KoState.setSalt_salt (k : KoState) (v : Memory) : (k.setSalt v).salt = v := rfl
@[simp] theorem KoState.setSalt_seed (k : KoState) (v : Memory) : (k.setSalt v).seed = k.seed := rfl
@[simp] theorem KoState.setSalt_kdone (k : KoState) (v : Memory) : (k.setSalt v).kdone = k.kdone := rfl

@[simp] theorem KoState.setSeed_pwLen (k : KoState) (v : Block) (done : Bool) : (k.setSeed v done).pwLen = k.pwLen := rfl
@[simp] theorem KoState.setSeed_saltLen (k : KoState) (v : Block) (done : Bool) : (k.setSeed v done).saltLen = k.saltLen := rfl
@[simp] theorem KoState.setSeed_pw (k : KoState) (v : Block) (done : Bool) : (k.setSeed v done).pw = k.pw := rfl
@[simp] theorem KoState.setSeed_salt (k : KoState) (v : Block) (done : Bool) : (k.setSeed v done).salt = k.salt := rfl
@[simp] theorem KoState.setSeed_seed (k : KoState) (v : Block) (done : Bool) : (k.setSeed v done).seed = v := rfl
@[simp] theorem KoState.setSeed_kdone (k : KoState) (v : Block) (done : Bool) : (k.setSeed v done).kdone = done := rfl

@[simp] theorem KoState.clearSeed_pwLen (k : KoState) : k.clearSeed.pwLen = k.pwLen := rfl
@[simp] theorem KoState.clearSeed_saltLen (k : KoState) : k.clearSeed.saltLen = k.saltLen := rfl
@[simp] theorem KoState.clearSeed_pw (k : KoState) : k.clearSeed.pw = k.pw := rfl
@[simp] theorem KoState.clearSeed_salt (k : KoState) : k.clearSeed.salt = k.salt := rfl
@[simp] theorem KoState.clearSeed_seed (k : KoState) : k.clearSeed.seed = Vector.replicate 64 0#8 := rfl
@[simp] theorem KoState.clearSeed_kdone (k : KoState) : k.clearSeed.kdone = false := rfl

@[simp] theorem State.withCommand_sizes (s : State) (cw : Word) : (s.withCommand cw).sizes = s.sizes := rfl
@[simp] theorem State.withCommand_input (s : State) (cw : Word) : (s.withCommand cw).input = .command cw :: s.input := rfl
@[simp] theorem State.withCommand_output (s : State) (cw : Word) : (s.withCommand cw).output = s.output := rfl

@[simp] theorem respond_toBlockState (v : Word) (s : State) : (respond v s).toBlockState = s.toBlockState := rfl
@[simp] theorem ignored_toBlockState (s : State) : (ignored s).toBlockState = s.toBlockState := rfl
@[simp] theorem State.setInput_toBlockState (s : State) (v : List PortEvent) : (s.setInput v).toBlockState = s.toBlockState := rfl
@[simp] theorem State.withCommand_toBlockState (s : State) (cw : Word) : (s.withCommand cw).toBlockState = s.toBlockState := rfl
@[simp] theorem State.clear_toBlockState (s : State) : s.clear.toBlockState = BlockState.reset s.hasKo := rfl

@[simp] theorem BlockState.reset_ent (hasKo : Bool) : (BlockState.reset hasKo).ent = Vector.replicate 32 0#8 := rfl
@[simp] theorem BlockState.reset_idx (hasKo : Bool) : (BlockState.reset hasKo).idx = Vector.replicate 24 0#11 := rfl
@[simp] theorem BlockState.reset_sel (hasKo : Bool) : (BlockState.reset hasKo).sel = 0#3 := rfl
@[simp] theorem BlockState.reset_hash0 (hasKo : Bool) : (BlockState.reset hasKo).hash0 = 0#8 := rfl
@[simp] theorem BlockState.reset_csx (hasKo : Bool) : (BlockState.reset hasKo).csx = 0#8 := rfl
@[simp] theorem BlockState.reset_matched (hasKo : Bool) : (BlockState.reset hasKo).matched = false := rfl
@[simp] theorem BlockState.reset_err (hasKo : Bool) : (BlockState.reset hasKo).err = 0#4 := rfl
@[simp] theorem BlockState.reset_ko (hasKo : Bool) : (BlockState.reset hasKo).ko = if hasKo then some KoState.reset else none := rfl

@[simp] theorem KoState.reset_pwLen : KoState.reset.pwLen = 0#12 := rfl
@[simp] theorem KoState.reset_saltLen : KoState.reset.saltLen = 0#12 := rfl
@[simp] theorem KoState.reset_pw : KoState.reset.pw = [] := rfl
@[simp] theorem KoState.reset_salt : KoState.reset.salt = [] := rfl
@[simp] theorem KoState.reset_seed : KoState.reset.seed = Vector.replicate 64 0#8 := rfl
@[simp] theorem KoState.reset_kdone : KoState.reset.kdone = false := rfl

end Sys2Proof.Machine
end

