-- ==== Sys2Proof/Laws/Ops.lean ====
section
/-! SUPPORT. What each shared operation of the meanings can do, said once. -/

namespace Sys2Proof.Machine

theorem whenLive_of_live {s : State} (h : s.err = 0#4) (t : State) : whenLive s t = t := if_pos h

theorem whenLive_of_faulted {s : State} (h : s.err ≠ 0#4) (t : State) : whenLive s t = ignored s := if_neg h

theorem whenKo_of_live {s : State} {k : KoState} (h : s.err = 0#4) (hk : s.ko = some k) (f : KoState → State) :
    whenKo s f = f k := by
  simp [whenKo, whenLive, h, hk]

theorem whenKo_of_absent {s : State} (h : s.err = 0#4) (hk : s.ko = none) (f : KoState → State) :
    whenKo s f = raise .illegalCommand s := by
  simp [whenKo, whenLive, h, hk]

theorem whenKo_of_faulted {s : State} (h : s.err ≠ 0#4) (f : KoState → State) : whenKo s f = ignored s := if_neg h

/-- A command other than `RDS` and `CLR` is ignored, or the block is not faulted and performs it. -/
theorem whenLive_cases (s t : State) : (s.err ≠ 0#4 ∧ whenLive s t = ignored s) ∨ (s.err = 0#4 ∧ whenLive s t = t) := by
  by_cases h : s.err = 0#4
  · exact .inr ⟨h, if_pos h⟩
  · exact .inl ⟨h, if_neg h⟩

/-- A KO command is ignored, is illegal in a block without the KO, or is performed on the KO's fields. -/
theorem whenKo_cases (s : State) (f : KoState → State) :
    (s.err ≠ 0#4 ∧ whenKo s f = ignored s) ∨ (s.err = 0#4 ∧ s.ko = none ∧ whenKo s f = raise .illegalCommand s) ∨
      ∃ k, s.err = 0#4 ∧ s.ko = some k ∧ whenKo s f = f k := by
  by_cases h : s.err = 0#4
  · cases hk : s.ko with
    | none => exact .inr (.inl ⟨h, rfl, whenKo_of_absent h hk f⟩)
    | some k => exact .inr (.inr ⟨k, h, rfl, whenKo_of_live h hk f⟩)
  · exact .inl ⟨h, whenKo_of_faulted h f⟩

theorem withOperand_cases {α : Type} (o : Option α) (s : State) (f : α → State) :
    withOperand o s f = raise .illegalCommand s ∨ ∃ v, o = some v ∧ withOperand o s f = f v := by
  cases o with
  | none => exact .inl rfl
  | some v => exact .inr ⟨v, rfl, rfl⟩

theorem withAddress_cases (a : Field) (n : Nat) (s : State) (f : Nat → State) :
    withAddress a n s f = raise .badAddress s ∨ (a.toNat < n ∧ withAddress a n s f = f a.toNat) := by
  by_cases h : a.toNat < n
  · exact .inr ⟨h, if_pos h⟩
  · exact .inl (if_neg h)

theorem withLength_cases (s : State) (f : LengthRow → State) :
    withLength s f = raise .noLength s ∨ ∃ r, lengthRow s.sel = some r ∧ withLength s f = f r := by
  unfold withLength
  cases h : lengthRow s.sel with
  | none => exact .inl rfl
  | some r => exact .inr ⟨r, rfl, rfl⟩

theorem selectRow_cases (row : Option (BitVec 3)) (c : Cause) (s : State) :
    selectRow row c s = raise c s ∨ ∃ v, row = some v ∧ selectRow row c s = respond 0 (s.setSel v).clearMatch := by
  cases row with
  | none => exact .inl rfl
  | some v => exact .inr ⟨v, rfl, rfl⟩

theorem byteOperand_of_isByte {d : Field} (h : d.isByte = true) : byteOperand d = some (d.extractLsb' 0 8) := if_pos h

theorem byteOperand_of_not_isByte {d : Field} (h : d.isByte = false) : byteOperand d = none :=
  if_neg (by simp [h])

theorem indexOperand_of_isIndex {d : Field} (h : d.isIndex = true) : indexOperand d = some (d.extractLsb' 0 11) :=
  if_pos h

theorem indexOperand_of_not_isIndex {d : Field} (h : d.isIndex = false) : indexOperand d = none :=
  if_neg (by simp [h])

/-- Every row a selection names is a row of the table. -/
theorem lengthRow_mem {sel : BitVec 3} {r : LengthRow} (h : lengthRow sel = some r) : r ∈ lengthTable := by
  unfold lengthRow at h
  split at h
  · cases h
  · exact List.mem_of_getElem? h

/-- The lengths of a row fit the buffers, and the stream has no padding (R110). -/
theorem lengthTable_bounds {r : LengthRow} (h : r ∈ lengthTable) :
    r.len ≤ 32 ∧ r.words ≤ 24 ∧ 4 ≤ r.cs ∧ r.cs ≤ 8 ∧ 8 * r.len + r.cs = 11 * r.words := by
  revert r
  decide

theorem selOfLength_le {d : Field} {v : BitVec 3} (h : selOfLength d = some v) : v.toNat ≤ 5 ∧ v ≠ 0#3 := by
  unfold selOfLength at h
  split at h <;> cases h <;> decide

theorem selOfWordCount_le {d : Field} {v : BitVec 3} (h : selOfWordCount d = some v) : v.toNat ≤ 5 ∧ v ≠ 0#3 := by
  unfold selOfWordCount at h
  split at h <;> cases h <;> decide

/-- Every command answers a next state: no command stops the machine (R185). -/
theorem exec_answers_next (i : Instr) (s : State) : ∃ t, exec i s = .next t := by
  cases i <;> exact ⟨_, rfl⟩

end Sys2Proof.Machine
end

