-- ==== Sys2Proof/Laws/PerInstr.lean ====
section
/-! SUPPORT. The encoding of each command: its opcode and its row's mask and match (30_encoding.md R84). -/

namespace Sys2Proof

@[simp] theorem opField_commandWord (op : BitVec 8) (a d : Field) : opField (commandWord op a d) = op := by
  apply BitVec.eq_of_getLsbD_eq
  intro i hi
  have h1 : ¬ 24 + i < 24 := by omega
  have h2 : 24 + i - 12 ≥ 12 := by omega
  simp only [opField, commandWord, BitVec.getLsbD_extractLsb', BitVec.getLsbD_or, BitVec.getLsbD_shiftLeft,
    BitVec.getLsbD_setWidth, BitVec.getLsbD_of_ge a _ h2, BitVec.getLsbD_of_ge d (24 + i) (by omega)]
  simp [h1, hi, show 24 + i < 32 by omega, show i < 32 by omega]

@[simp] theorem aField_commandWord (op : BitVec 8) (a d : Field) : aField (commandWord op a d) = a := by
  apply BitVec.eq_of_getLsbD_eq
  intro i hi
  simp only [aField, commandWord, BitVec.getLsbD_extractLsb', BitVec.getLsbD_or, BitVec.getLsbD_shiftLeft,
    BitVec.getLsbD_setWidth, BitVec.getLsbD_of_ge d (12 + i) (by omega)]
  simp [hi, show 12 + i < 32 by omega, show 12 + i < 24 by omega, show i < 32 by omega]

@[simp] theorem dField_commandWord (op : BitVec 8) (a d : Field) : dField (commandWord op a d) = d := by
  apply BitVec.eq_of_getLsbD_eq
  intro i hi
  simp only [dField, commandWord, BitVec.getLsbD_extractLsb', BitVec.getLsbD_or, BitVec.getLsbD_shiftLeft,
    BitVec.getLsbD_setWidth]
  simp [hi, show i < 32 by omega, show i < 24 by omega]

/-- A word is its three fields (R80). -/
theorem commandWord_fields (cw : Word) : commandWord (opField cw) (aField cw) (dField cw) = cw := by
  apply BitVec.eq_of_getLsbD_eq
  intro i hi
  simp only [opField, aField, dField, commandWord, BitVec.getLsbD_extractLsb', BitVec.getLsbD_or,
    BitVec.getLsbD_shiftLeft, BitVec.getLsbD_setWidth]
  by_cases h1 : i < 12
  · simp [hi, h1, show i < 24 by omega]
  · by_cases h2 : i < 24
    · simp [hi, h1, h2, show i - 12 < 12 by omega, show i - 12 < 32 by omega,
        show 12 + (i - 12) = i by omega]
    · simp [hi, h1, h2, show ¬ i - 12 < 12 by omega, show i - 24 < 8 by omega, show i - 24 < 32 by omega,
        show 24 + (i - 24) = i by omega]

end Sys2Proof

namespace Sys2Proof.Laws.Encoding

/-- The opcode column of R84. -/
def opcode : Instr → BitVec 8
  | .nop => 0x00#8
  | .clr => 0x01#8
  | .rds => 0x02#8
  | .setlen _ => 0x10#8
  | .setwc _ => 0x11#8
  | .lde _ _ => 0x12#8
  | .rde _ => 0x13#8
  | .ldh _ => 0x14#8
  | .ldi _ _ => 0x15#8
  | .rdi _ => 0x16#8
  | .rdc => 0x17#8
  | .pack => 0x18#8
  | .unpack => 0x19#8
  | .chk => 0x1A#8
  | .ksetp _ => 0x20#8
  | .ksets _ => 0x21#8
  | .kldp _ _ => 0x22#8
  | .klds _ _ => 0x23#8
  | .krun => 0x24#8
  | .krds _ => 0x25#8

/-- The encoding of the command carries the row's opcode (R84). -/
def Statement (i : Instr) : Prop := opField (encode i) = opcode i

theorem nop : Statement .nop := opField_commandWord _ _ _
theorem clr : Statement .clr := opField_commandWord _ _ _
theorem rds : Statement .rds := opField_commandWord _ _ _
theorem setlen (d : Field) : Statement (.setlen d) := opField_commandWord _ _ _
theorem setwc (d : Field) : Statement (.setwc d) := opField_commandWord _ _ _
theorem lde (a d : Field) : Statement (.lde a d) := opField_commandWord _ _ _
theorem rde (a : Field) : Statement (.rde a) := opField_commandWord _ _ _
theorem ldh (d : Field) : Statement (.ldh d) := opField_commandWord _ _ _
theorem ldi (a d : Field) : Statement (.ldi a d) := opField_commandWord _ _ _
theorem rdi (a : Field) : Statement (.rdi a) := opField_commandWord _ _ _
theorem rdc : Statement .rdc := opField_commandWord _ _ _
theorem pack : Statement .pack := opField_commandWord _ _ _
theorem unpack : Statement .unpack := opField_commandWord _ _ _
theorem chk : Statement .chk := opField_commandWord _ _ _
theorem ksetp (d : Field) : Statement (.ksetp d) := opField_commandWord _ _ _
theorem ksets (d : Field) : Statement (.ksets d) := opField_commandWord _ _ _
theorem kldp (a d : Field) : Statement (.kldp a d) := opField_commandWord _ _ _
theorem klds (a d : Field) : Statement (.klds a d) := opField_commandWord _ _ _
theorem krun : Statement .krun := opField_commandWord _ _ _
theorem krds (a : Field) : Statement (.krds a) := opField_commandWord _ _ _

end Sys2Proof.Laws.Encoding
end

