-- ==== Sys2Proof/Laws/Run.lean ====
section
/-! SUPPORT. What a run does: one event at a time, in order, the responses one after another. -/

namespace Sys2Proof.Machine

@[simp] theorem run_nil (z : BufferSizes) (b : BlockState) : run z [] b = (b, []) := rfl

theorem run_cons (z : BufferSizes) (e : PortEvent) (es : List PortEvent) (b : BlockState) :
    run z (e :: es) b = ((run z es (perform z e b).1).1, (perform z e b).2 ++ (run z es (perform z e b).1).2) := rfl

theorem run_append (z : BufferSizes) (es fs : List PortEvent) (b : BlockState) :
    run z (es ++ fs) b = ((run z fs (run z es b).1).1, (run z es b).2 ++ (run z fs (run z es b).1).2) := by
  induction es generalizing b with
  | nil => simp
  | cons e es ih => simp [run_cons, ih]

theorem runCommands_append (z : BufferSizes) (is js : List Instr) (b : BlockState) :
    runCommands z (is ++ js) b =
      ((runCommands z js (runCommands z is b).1).1,
        (runCommands z is b).2 ++ (runCommands z js (runCommands z is b).1).2) := by
  simp [runCommands, run_append]

@[simp] theorem perform_reset (z : BufferSizes) (b : BlockState) :
    perform z .reset b = (BlockState.reset b.hasKo, []) := rfl

/-- A step with a known answer is what `perform` does. -/
theorem perform_of_step {z : BufferSizes} {e : PortEvent} {b : BlockState} {t : State}
    (h : step { toBlockState := b, sizes := z, input := [e], output := [] } = .next t) :
    perform z e b = (t.toBlockState, t.output) := by
  rw [perform, h]

/-- A run that begins with a command whose effect is known goes on from there. -/
theorem runCommands_cons {z : BufferSizes} {i : Instr} {is : List Instr} {b c : BlockState} {v : Word}
    (hd : decode (encode i) = .command i)
    (h : exec i { toBlockState := b, sizes := z, input := [], output := [] } =
      .next { toBlockState := c, sizes := z, input := [], output := [v] }) :
    runCommands z (i :: is) b = ((runCommands z is c).1, v :: (runCommands z is c).2) := by
  have hs : step { toBlockState := b, sizes := z, input := [.command (encode i)], output := [] } =
      .next { toBlockState := c, sizes := z, input := [], output := [v] } := by
    rw [← h]; simp [step, fetch, hd]; rfl
  simp [runCommands, run_cons, perform_of_step hs]

/-- The host's run of the machine takes one step at a time. -/
theorem core_run_next {s t : State} (h : step s = .next t) (n : Nat) :
    Sys2Proof.core.run (n + 1) s = Sys2Proof.core.run n t := by
  simp only [Host.Core.run, show Sys2Proof.core.step s = .next t from h]

end Sys2Proof.Machine
end

