-- ==== Sys2Proof/Machine/HostOperations.lean ====
section
/-! DEFINITION. What the spec says of the host's use of the block: the source's operations as command sequences with their
outcomes (50_interfaces.md R187) and the source's error kinds (R188, 60_exceptions.md R209). Nothing of the block depends
on it. -/

namespace Sys2Proof.Machine

/-! ## The command sequences -/

/-- A length as the operand of `SETLEN`, `SETWC`, `KSETP` or `KSETS`; none for 4096 and more, which no `d` field holds
(R82 d). DESIGN CHOICE: R187 does not say what the host does with such a length, and the model has it send nothing
(notes/assumptions/14.md). -/
def lengthField (n : Nat) : Option Field := if n < 4096 then some (BitVec.ofNat 12 n) else none

/-- The row of an entropy length in bytes (R110). -/
def rowOfLength (len : Nat) : Option LengthRow := lengthTable.find? (·.len == len)

/-- The row of a number of words: the table read from the right (41_length_select.md R114). -/
def rowOfWords (words : Nat) : Option LengthRow := lengthTable.find? (·.words == words)

/-- `to_mnemonic(E)`, with `h` the first byte of the hash of `E` (R187). The responses of the last `N` commands are the
indices. -/
def toMnemonicCommands (E : List Byte) (h : Byte) : Option (List Instr) :=
  (lengthField E.length).map fun d =>
    .setlen d :: (Pseudo.ldent E).expand ++ [.ldh (h.setWidth 12), .pack]
      ++ readFirst .rdi (((rowOfLength E.length).map (·.words)).getD 0)

/-- The first part of `to_entropy(words)`, the words as indices (R187). The responses of the last `L` commands are the
entropy, which the host hashes. -/
def toEntropyCommands (I : List Index) : Option (List Instr) :=
  (lengthField I.length).map fun d =>
    .setwc d :: (Pseudo.ldidx I).expand ++ [.unpack]
      ++ readFirst .rde (((rowOfWords I.length).map (·.len)).getD 0)

/-- The second part of `to_entropy`, and of `check`: compare with `h`, the first byte of the hash of what was read
(R187). -/
def checkCommands (h : Byte) : List Instr := [.ldh (h.setWidth 12), .chk]

/-- `to_seed`, the password and the salt as bytes (R187). The responses of the last 64 commands are the seed. -/
def toSeedCommands (P S : List Byte) : Option (List Instr) :=
  (lengthField P.length).bind fun _ => (lengthField S.length).map fun _ =>
    (Pseudo.kldpw P).expand ++ (Pseudo.kldsalt S).expand ++ [.krun] ++ Pseudo.krdseed.expand

/-! ## The error kinds -/

/-- The source's error kinds that the block has a part in (R188); the others arise in host software alone (R209). -/
inductive SourceError where
  | invalidArgument
  | checksumError
deriving DecidableEq, Repr

/-- Why an operation failed: a source error kind (R188), a fault that is none of them, or an input the host refuses
itself because it does not fit the buffers (R186 H8). -/
inductive Failure where
  | source (e : SourceError)
  | fault (code : BitVec 4)
  | tooLong
deriving DecidableEq, Repr

/-- The source error kind of a latched cause (R188): the two length causes; the others are the host's own misuse and no
error kind of the source. -/
def sourceErrorOfCause : Cause → Option SourceError
  | .invalidLength => some .invalidArgument
  | .invalidWordCount => some .invalidArgument
  | .noLength => none
  | .badAddress => none
  | .illegalCommand => none
  | .kNotDone => none
  | .kLengthRange => none

/-- The source error kind of the response of `CHK` in `to_entropy` (R188, R209). -/
def sourceErrorOfChk (response : Word) : Option SourceError :=
  if response = 0#32 then some .checksumError else none

/-- The cause with a code (R200). -/
def causeOfCode (code : BitVec 4) : Option Cause :=
  [Cause.invalidLength, .invalidWordCount, .noLength, .badAddress, .illegalCommand, .kNotDone, .kLengthRange].find?
    fun c => causeCode c == code

/-- What a latched `ERR` means to the host (R188). -/
def failureOfErr (code : BitVec 4) : Failure :=
  match (causeOfCode code).bind sourceErrorOfCause with
  | some e => .source e
  | none => .fault code

/-! ## The operations -/

/-- A response that says the command faulted or was ignored: bit 31 (R181, 70_reset_and_hazards.md R226). -/
def isFaultResponse (response : Word) : Bool := response.getLsbD 31

/-- "After a fault the host sends CLR before the next operation" (R187), and before it `RDS`, which shows the cause
(R188). -/
def recover {α : Type} (z : BufferSizes) (b : BlockState) : BlockState × Except Failure α :=
  let r := runCommands z [.rds, .clr] b
  (r.1, .error (failureOfErr ((r.2.headD 0#32).extractLsb' 8 4)))

/-- Sends a sequence and reads a result from its responses; with a fault response among them the operation fails. A
sequence that cannot be sent is an illegal argument the host finds "before sending" (R188, notes/assumptions/14.md). -/
def operate {α : Type} (z : BufferSizes) (commands : Option (List Instr)) (result : List Word → α) (b : BlockState) :
    BlockState × Except Failure α :=
  match commands with
  | none => (b, .error (.source .invalidArgument))
  | some is =>
    let r := runCommands z is b
    if r.2.any isFaultResponse then recover z r.1 else (r.1, .ok (result r.2))

/-- `to_mnemonic(E)` up to the words: the indices (R187). `hash` is the first byte of SHA-256, which the host computes
(00_scope.md R5). -/
def toMnemonic (z : BufferSizes) (hash : List Byte → Byte) (E : List Byte) (b : BlockState) :
    BlockState × Except Failure (List Index) :=
  operate z (toMnemonicCommands E (hash E)) (fun rs => (rs.drop (E.length + 3)).map (BitVec.setWidth 11)) b

/-- `to_entropy(words)`, the words as the host's lookup leaves them: none when one is unknown, and then nothing is sent
(R186 H5, R187). On a mismatch it fails with `ChecksumError` and does not return the bytes it read (R186 H6). -/
def toEntropy (z : BufferSizes) (hash : List Byte → Byte) (words : Option (List Index)) (b : BlockState) :
    BlockState × Except Failure (List Byte) :=
  match words with
  | none => (b, .error (.source .invalidArgument))
  | some I =>
    match operate z (toEntropyCommands I) (fun rs => (rs.drop (I.length + 2)).map (BitVec.setWidth 8)) b with
    | (b1, .error e) => (b1, .error e)
    | (b1, .ok E) =>
      match operate z (some (checkCommands (hash E))) (fun rs => rs.getLastD 0#32) b1 with
      | (b2, .error e) => (b2, .error e)
      | (b2, .ok response) =>
        match sourceErrorOfChk response with
        | some e => (b2, .error (.source e))
        | none => (b2, .ok E)

/-- `check(sentence)`: true when `to_entropy` succeeds; "any fault response, unknown word or CHK -> 0 gives false"
(R187), and after a false the host "restores the block with `CLR`" (R188). -/
def check (z : BufferSizes) (hash : List Byte → Byte) (words : Option (List Index)) (b : BlockState) : BlockState × Bool :=
  match toEntropy z hash words b with
  | (b1, .ok _) => (b1, true)
  | (b1, .error _) => ((runCommands z [.clr] b1).1, false)

/-- `to_seed`, the password and the salt as the bytes of R186 H8; "the host refuses longer inputs itself". -/
def toSeed (z : BufferSizes) (P S : List Byte) (b : BlockState) : BlockState × Except Failure (List Byte) :=
  if P.length ≤ z.pwMax ∧ S.length ≤ z.saltMax then
    operate z (toSeedCommands P S) (fun rs => (rs.drop (P.length + S.length + 3)).map (BitVec.setWidth 8)) b
  else (b, .error .tooLong)

/-- `generate(strength)`: the host draws `strength/8` random bytes and makes a mnemonic of them (R187); another strength
is an illegal argument the host finds itself (R188). -/
def generate (z : BufferSizes) (hash : List Byte → Byte) (draw : Nat → List Byte) (strength : Nat) (b : BlockState) :
    BlockState × Except Failure (List Index) :=
  if strength ∈ [128, 160, 192, 224, 256] then toMnemonic z hash (draw (strength / 8)) b
  else (b, .error (.source .invalidArgument))

end Sys2Proof.Machine
end

