-- ==== Sys2Proof/Tests/Slice0.lean ====
section
/-! SUPPORT. The model's own tests: ill-formed commands, words written out from the spec's encodings, single steps with
the results of 95_test_vectors.md, and for every statement with hypotheses a witness that meets them. -/

namespace Sys2Proof.Tests

open Sys2Proof Sys2Proof.Machine

/-- The block of 95_test_vectors.md: the KO is there, PWMAX = SALTMAX = 256, the reset state. -/
def ko : State := State.resetWith ⟨⟨256, 256⟩, true⟩

/-- The same block without the KO. -/
def noKo : State := State.resetWith ⟨⟨256, 256⟩, false⟩

/-- The faulted block of V35 to V37. -/
def faulted : State := { ko with err := 5#4 }

/-- V86: SEL = 1, CSX = 3, HASH0 = 0x37; MATCH = 1 besides. -/
def matching : State := { ko with sel := 1#3, csx := 3#8, hash0 := 0x37#8, matched := true }

/-- `ko` with these KO fields. -/
def withKo (k : KoState) : State := { ko with ko := some k }

/-- A view of the next state, with the response. -/
def look {α : Type} (o : Host.Outcome State Fault Refusal) (f : State → α) : Option (α × Option Word) :=
  match o with
  | .next t => some (f t, t.output.head?)
  | _ => none

/-- The state a step answers. -/
def nextOf (o : Host.Outcome State Fault Refusal) : State :=
  match o with
  | .next t => t
  | _ => ko

/-- A step on a word, seen as `STATUS` and the response. -/
def statusAfter (s : State) (cw : Word) : Option (Word × Option Word) := look (step (s.withCommand cw)) statusWord

/-- `ENT` holding `xs` and zeros after it. -/
def entOf (xs : List Byte) : Vector Byte 32 := storeFirst (Vector.replicate 32 0#8) xs

/-- `IDX` holding `xs` and zeros after it. -/
def idxOf (xs : List Index) : Vector Index 24 := storeFirst (Vector.replicate 24 0#11) xs

/-! ## Well-formed commands (R82, R88): one ill-formed term for each check -/

theorem test_lde_wide_byte_refused : ¬ (Instr.lde 0 0x100).WellFormed := by decide
theorem test_ldh_wide_byte_refused : ¬ (Instr.ldh 0x14E).WellFormed := by decide
theorem test_ldi_wide_index_refused : ¬ (Instr.ldi 0 2048).WellFormed := by decide
theorem test_kldp_wide_byte_refused : ¬ (Instr.kldp 0 0x800).WellFormed := by decide
theorem test_klds_wide_byte_refused : ¬ (Instr.klds 7 0x163).WellFormed := by decide
theorem test_widest_operands_accepted :
    (Instr.lde 4095 0xFF).WellFormed ∧ (Instr.ldi 4095 0x7FF).WellFormed ∧ (Instr.setlen 4095).WellFormed := by decide

/-! ## Decoding: a word written out bit by bit from 30_encoding.md, `op` (8) `a` (12) `d` (12), for every constructor -/

theorem test_decode_nop : decode 0b00000000_000000000000_000000000000#32 = .command .nop := by decide
theorem test_decode_clr : decode 0b00000001_000000000000_000000000000#32 = .command .clr := by decide
theorem test_decode_rds : decode 0b00000010_000000000000_000000000000#32 = .command .rds := by decide
theorem test_decode_setlen : decode 0b00010000_000000000000_000000010000#32 = .command (.setlen 16) := by decide
theorem test_decode_setwc : decode 0b00010001_000000000000_000000001100#32 = .command (.setwc 12) := by decide
theorem test_decode_lde : decode 0b00010010_000000011111_000011111111#32 = .command (.lde 31 0xFF) := by decide
theorem test_decode_rde : decode 0b00010011_000000100000_000000000000#32 = .command (.rde 32) := by decide
theorem test_decode_ldh : decode 0b00010100_000000000000_000001001110#32 = .command (.ldh 0x4E) := by decide
theorem test_decode_ldi : decode 0b00010101_000000001011_000000000100#32 = .command (.ldi 11 4) := by decide
theorem test_decode_rdi : decode 0b00010110_000000001011_000000000000#32 = .command (.rdi 11) := by decide
theorem test_decode_rdc : decode 0b00010111_000000000000_000000000000#32 = .command .rdc := by decide
theorem test_decode_pack : decode 0b00011000_000000000000_000000000000#32 = .command .pack := by decide
theorem test_decode_unpack : decode 0b00011001_000000000000_000000000000#32 = .command .unpack := by decide
theorem test_decode_chk : decode 0b00011010_000000000000_000000000000#32 = .command .chk := by decide
theorem test_decode_ksetp : decode 0b00100000_000000000000_000100000001#32 = .command (.ksetp 257) := by decide
theorem test_decode_ksets : decode 0b00100001_000000000000_111111111111#32 = .command (.ksets 4095) := by decide
theorem test_decode_kldp : decode 0b00100010_000100000000_000000000000#32 = .command (.kldp 256 0) := by decide
theorem test_decode_klds : decode 0b00100011_000000000111_000001100011#32 = .command (.klds 7 0x63) := by decide
theorem test_decode_krun : decode 0b00100100_000000000000_000000000000#32 = .command .krun := by decide
theorem test_decode_krds : decode 0b00100101_000000111111_000000000000#32 = .command (.krds 63) := by decide

/-- Each must-be-zero check of R83, and the words around the opcode ranges of R85. -/
theorem test_decode_rejects_by_name :
    decode 0x01000001#32 = .illegal .dataNotZero ∧ decode 0x10001010#32 = .illegal .addressNotZero ∧
    decode 0x13020001#32 = .illegal .dataNotZero ∧ decode 0x14001000#32 = .illegal .addressNotZero ∧
    decode 0x1400014E#32 = .illegal .byteTooWide ∧ decode 0x15000800#32 = .illegal .indexTooWide ∧
    decode 0x1B000000#32 = .illegal .reservedOpcode ∧ decode 0x26000000#32 = .illegal .reservedOpcode := by decide

/-- R88 on the examples of 95_test_vectors.md: LDI 11, 4 and KLDS 7, 0x63. -/
theorem test_encode_examples :
    encode (.ldi 11 4) = 0x1500B004#32 ∧ encode (.klds 7 0x63) = 0x23007063#32 := by decide

/-- The table's numbering of a word's bits: the low `nbits`, here all 32. -/
theorem test_decodeTableWord : decodeTableWord 32 0x1500B004 = some (.ldi 11 4) := by decide

/-! ## Single steps, the results from 95_test_vectors.md sections 3 and 4 -/

/-- V30, V35. -/
theorem test_nop : statusAfter matching 0x00000000 = some (0x29, some 0) ∧
    statusAfter faulted 0x01000001 = some (0x520, some 0x80000000) := by decide
/-- V37, V34. -/
theorem test_clr : statusAfter faulted 0x01000000 = some (0x20, some 0) ∧
    statusAfter ko 0x01000001 = some (0x520, some 0x80000000) := by decide
/-- V31 with and without the KO, V36. -/
theorem test_rds : statusAfter ko 0x02000000 = some (0x20, some 0x20) ∧
    statusAfter noKo 0x02000000 = some (0, some 0) ∧
    statusAfter faulted 0x02000000 = some (0x520, some 0x520) := by decide
/-- V40, V44. -/
theorem test_setlen : statusAfter ko 0x10000010 = some (0x21, some 0) ∧
    statusAfter ko 0x10000020 = some (0x25, some 0) := by decide
/-- V50, V56, V59. -/
theorem test_setlen_invalid : statusAfter ko 0x10000011 = some (0x120, some 0x80000000) ∧
    statusAfter ko 0x10000FFF = some (0x120, some 0x80000000) ∧
    statusAfter { ko with sel := 3 } 0x10000011 = some (0x123, some 0x80000000) := by decide
/-- V45, V48, V54. -/
theorem test_setwc : statusAfter ko 0x1100000C = some (0x21, some 0) ∧
    statusAfter ko 0x11000015 = some (0x24, some 0) ∧
    statusAfter ko 0x11000010 = some (0x220, some 0x80000000) := by decide
/-- V61; MATCH clears though ENT[31] keeps its value (section 3.3). -/
theorem test_lde : look (exec (.lde 31 0xFF) ko) (·.ent[31]?) = some (some 0xFF, some 0) ∧
    statusAfter matching 0x1201F000 = some (0x21, some 0) := by decide
/-- V62, V63. -/
theorem test_lde_faults : statusAfter ko 0x12020000 = some (0x420, some 0x80000000) ∧
    statusAfter ko 0x12000100 = some (0x520, some 0x80000000) := by decide
/-- V64, V66, V67. -/
theorem test_rde : look (exec (.rde 0) { ko with ent := entOf [0x80] }) statusWord = some (0x20, some 0x80) ∧
    statusAfter ko 0x13020000 = some (0x420, some 0x80000000) ∧
    statusAfter ko 0x13020001 = some (0x520, some 0x80000000) := by decide
/-- V68; V69; the same hash byte again clears MATCH (section 3.3). -/
theorem test_ldh : look (exec (.ldh 0x4E) ko) (·.hash0) = some (0x4E, some 0) ∧
    statusAfter ko 0x1400014E = some (0x520, some 0x80000000) ∧
    statusAfter matching 0x14000037 = some (0x21, some 0) := by decide
/-- V71, V73. -/
theorem test_ldi : look (exec (.ldi 11 4) ko) (·.idx[11]?) = some (some 4, some 0) ∧
    look (exec (.ldi 23 1) ko) (·.idx[23]?) = some (some 1, some 0) := by decide
/-- V74, V75. -/
theorem test_ldi_faults : statusAfter ko 0x15018000 = some (0x420, some 0x80000000) ∧
    statusAfter ko 0x15000800 = some (0x520, some 0x80000000) := by decide
/-- V76, V77. -/
theorem test_rdi : look (exec (.rdi 0) { ko with idx := idxOf [0x7FF] }) statusWord = some (0x20, some 0x7FF) ∧
    statusAfter ko 0x16018000 = some (0x420, some 0x80000000) := by decide
/-- V78; the RDC row of section 3.3. -/
theorem test_rdc : statusAfter ko 0x17000000 = some (0x20, some 0) ∧
    statusAfter matching 0x17000000 = some (0x29, some 3) := by decide
/-- V10, the source's fixed vector; IDX[12..23] keep their values. -/
theorem test_pack :
    look (exec .pack
      { ko with
        sel := 1, ent := entOf (List.replicate 16 0x80), hash0 := 0x4E
        idx := Vector.replicate 24 5 }) (·.idx.toList) =
    some ([1028, 32, 257, 8, 64, 514, 16, 128, 1028, 32, 257, 4] ++ List.replicate 12 5, some 0) := by decide
/-- V15, a length with a checksum of five bits; V80. -/
theorem test_pack_twenty :
    look (exec .pack
      { ko with
        sel := 2, hash0 := 0xE1
        ent := entOf [1, 2, 3, 4, 5, 6, 7, 8, 9, 10, 11, 12, 13, 14, 15, 16, 17, 18, 19, 20] }) (·.idx.toList.take 15) =
    some ([8, 128, 1544, 80, 771, 1056, 289, 523, 96, 835, 1054, 257, 137, 76, 668], some 0) ∧
    statusAfter ko 0x18000000 = some (0x320, some 0x80000000) := by decide
/-- V23; ENT[16..31] keep their values. -/
theorem test_unpack :
    look (exec .unpack
      { ko with
        sel := 1, ent := Vector.replicate 32 0x55
        idx := idxOf [2047, 0, 2047, 0, 2047, 0, 2047, 0, 2047, 0, 2047, 1365] }) (fun t => (t.ent.toList, t.csx)) =
    some (([0xFF, 0xE0, 0x03, 0xFF, 0x80, 0x0F, 0xFE, 0x00, 0x3F, 0xF8, 0x00, 0xFF, 0xE0, 0x03, 0xFF, 0xD5] ++
      List.replicate 16 0x55, 0x05), some 0) := by decide
/-- V17, a length with a checksum of six bits; V81. -/
theorem test_unpack_twenty_four : look (exec .unpack { ko with sel := 3, idx := idxOf [1322, 1705, 693, 597, 1362, 1386,
      1195, 677, 725, 342, 1354, 1450, 685, 661, 852, 1370, 1322, 1719] }) (fun t => (t.ent.toList.take 24, t.csx)) =
    some (((List.replicate 12 [0xA5, 0x5A]).flatten, 55), some 0) ∧
    statusAfter ko 0x19000000 = some (0x320, some 0x80000000) := by decide
/-- V87, V88: only the top four bits count; a mismatch is no fault. -/
theorem test_chk : statusAfter { matching with hash0 := 0x3F, matched := false } 0x1A000000 = some (0x29, some 1) ∧
    statusAfter { matching with hash0 := 0x4E } 0x1A000000 = some (0x21, some 0) := by decide
/-- V89 to V93: the shift of each other row; V82. -/
theorem test_chk_rows : look (exec .chk { ko with sel := 5, csx := 0x66, hash0 := 0x66 }) (·.matched) = some (true, some 1) ∧
    look (exec .chk { ko with sel := 5, csx := 0x66, hash0 := 0x67 }) (·.matched) = some (false, some 0) ∧
    look (exec .chk { ko with sel := 2, csx := 27, hash0 := 0xDE }) (·.matched) = some (true, some 1) ∧
    look (exec .chk { ko with sel := 3, csx := 60, hash0 := 0xF3 }) (·.matched) = some (true, some 1) ∧
    look (exec .chk { ko with sel := 4, csx := 25, hash0 := 0x33 }) (·.matched) = some (true, some 1) ∧
    statusAfter ko 0x1A000000 = some (0x320, some 0x80000000) := by decide
/-- V101, V102. -/
theorem test_ksetp : look (exec (.ksetp 256) ko) (fun t => t.ko.map (·.pwLen)) = some (some 256, some 0) ∧
    statusAfter ko 0x20000101 = some (0x720, some 0x80000000) := by decide
/-- V111: any successful write of the KO invalidates the seed; V112: a faulting one does not. -/
theorem test_ksetp_invalidates :
    look (exec (.ksetp 0) (withKo { KoState.reset with kdone := true, seed := Vector.replicate 64 1 }))
        (fun t => t.ko.map fun k => (k.kdone, k.seed[63]?)) = some (some (false, some 0), some 0) ∧
    look (exec (.ksetp 257) (withKo { KoState.reset with kdone := true, seed := Vector.replicate 64 1 }))
        (fun t => t.ko.map fun k => (k.kdone, k.seed[63]?)) = some (some (true, some 1), some 0x80000000) := by decide
/-- P4 row 2, V103. -/
theorem test_ksets : look (exec (.ksets 8) ko) (fun t => t.ko.map (·.saltLen)) = some (some 8, some 0) ∧
    statusAfter ko 0x21000FFF = some (0x720, some 0x80000000) := by decide
/-- V104, V105. -/
theorem test_kldp : look (exec (.kldp 0 0x70) ko) (fun t => t.ko.map (·.pw)) = some (some [(0, 0x70)], some 0) ∧
    statusAfter ko 0x22100000 = some (0x420, some 0x80000000) := by decide
/-- V106, V107. -/
theorem test_klds : look (exec (.klds 7 0x63) ko) (fun t => t.ko.map (·.salt)) = some (some [(7, 0x63)], some 0) ∧
    statusAfter ko 0x23000163 = some (0x520, some 0x80000000) := by decide
/-- V110: STATUS after KRUN on the empty password and salt. -/
theorem test_krun : statusAfter ko 0x24000000 = some (0x30, some 0) := by decide
/-- V113: a block without the KO. -/
theorem test_krun_without_ko : statusAfter noKo 0x24000000 = some (0x500, some 0x80000000) := by decide
/-- P4 row 16: the byte at address 63, here 0x68. -/
theorem test_krds :
    look (exec (.krds 63)
      (withKo { KoState.reset with kdone := true, seed := (Vector.replicate 64 0).setIfInBounds 63 0x68 })) statusWord = some (0x30, some 0x68) := by decide
/-- V108, V109: the address is checked first. -/
theorem test_krds_faults : statusAfter ko 0x25000000 = some (0x620, some 0x80000000) ∧
    statusAfter ko 0x25040000 = some (0x420, some 0x80000000) := by decide
/-- The message of round 1 is the salt and 00 00 00 01, the key the password (R164; K6 of section 6: 1 + 12 = 13). -/
theorem test_kdf_round_one :
    (kdfRounds (fun k m => Vector.replicate 64 (BitVec.ofNat 8 (k.length + m.length))) [0x70]
      [0x6D, 0x6E, 0x65, 0x6D, 0x6F, 0x6E, 0x69, 0x63] 0).1[0] = 13 := by decide
/-- K6: the message of round 2 is the 64 bytes of round 1, so its output is 1 + 64 = 65 and T is 13 xor 65 = 0x4C. -/
theorem test_kdf_round_two :
    let UT := kdfRounds (fun k m => Vector.replicate 64 (BitVec.ofNat 8 (k.length + m.length))) [0x70]
      [0x6D, 0x6E, 0x65, 0x6D, 0x6F, 0x6E, 0x69, 0x63] 1
    UT.1[0] = 65 ∧ UT.2[63] = 0x4C := by decide
/-- The reset input clears a faulted block and adds no response (R220). -/
theorem test_reset_input : look (step { faulted with input := [.reset, .command 0#32] }) (fun t => (t.err, t.input)) =
    some ((0#4, [.command 0#32]), none) := by decide
/-- Writing 0x00, what an unlisted byte reads as, removes the entry; a lower address goes before a higher one. -/
theorem test_memory_write : Memory.write [(3, 1#8), (7, 2#8)] 3 0#8 = [(7, 2#8)] ∧
    Memory.write [(3, 1#8), (7, 2#8)] 5 9#8 = [(3, 1#8), (5, 9#8), (7, 2#8)] := by decide
/-- From reset, the word placed for the next fetch is run at once, with and without an operand. -/
theorem test_first_step : step (State.reset.withFetchWord 32 0x24000000) = exec .krun State.reset ∧
    step (State.reset.withFetchWord 32 0x1500B004) = exec (.ldi 11 4) State.reset := ⟨rfl, rfl⟩

/-! ## The assembler (R88, R89) and the host's sequences (R187) -/

/-- R88's own example and its refusals: an operand that does not fit is refused, an address out of range is not. -/
theorem test_assemble_line :
    assemble ⟨256, 256⟩ "LDI 11, 4" = some [0x1500B004#32] ∧
    assemble ⟨256, 256⟩ "LDI 0, 2048" = none ∧
    assemble ⟨256, 256⟩ "LDE 40, 0" = some [0x12028000#32] ∧
    assemble ⟨256, 256⟩ "SETLEN 17   ; faults when performed\r\n" = some [0x10000011#32] := by decide

/-- P4 rows 0, 1, 2 and 12, P5 row 33 and V71, one command a line. -/
theorem test_assemble_text :
    assemble ⟨256, 256⟩ "KLDPW 70\nKSETS 8\n  KRUN\n; next\n\nLDH 0x63\nLDIDX 4" =
      some [0x20000001#32, 0x22000070#32, 0x21000008#32, 0x24000000#32, 0x14000063#32, 0x15000004#32] := by decide

/-- P1: the source's vector as the command words of `to_mnemonic`. -/
theorem test_to_mnemonic_is_p1 :
    (toMnemonicCommands (List.replicate 16 0x80) 0x4E).map (List.map encode) = some (
      [0x10000010#32, 0x12000080, 0x12001080, 0x12002080, 0x12003080, 0x12004080, 0x12005080, 0x12006080, 0x12007080,
        0x12008080, 0x12009080, 0x1200A080, 0x1200B080, 0x1200C080, 0x1200D080, 0x1200E080, 0x1200F080, 0x1400004E] ++
      [0x18000000#32, 0x16000000, 0x16001000, 0x16002000, 0x16003000, 0x16004000, 0x16005000, 0x16006000, 0x16007000,
        0x16008000, 0x16009000, 0x1600A000, 0x1600B000]) := by decide

/-- P2 rows 0, 12, 13, 15, 17 and 18: the reads of `to_entropy` are L = 16. -/
theorem test_to_entropy_is_p2 :
    (toEntropyCommands (List.replicate 11 0 ++ [3])).map (fun is => (is.length, (is.map encode).head?)) =
      some (30, some 0x1100000C#32) ∧
    (toEntropyCommands (List.replicate 11 0 ++ [3])).map (fun is => ((is.map encode).drop 12).take 3) =
      some [0x1500B003#32, 0x19000000, 0x13000000] ∧
    (checkCommands 0x37).map encode = [0x14000037#32, 0x1A000000] := by decide

/-- P4 rows 0 to 10, 12, 14 and 16: the password "p" and the salt "mnemonic". -/
theorem test_to_seed_is_p4 :
    (toSeedCommands [0x70] [0x6D, 0x6E, 0x65, 0x6D, 0x6F, 0x6E, 0x69, 0x63]).map (fun is => (is.map encode).take 13) =
      some [0x20000001#32, 0x22000070, 0x21000008, 0x2300006D, 0x2300106E, 0x23002065, 0x2300306D, 0x2300406F,
        0x2300506E, 0x23006069, 0x23007063, 0x24000000, 0x25000000] ∧
    (toSeedCommands [0x70] [0x6D, 0x6E, 0x65, 0x6D, 0x6F, 0x6E, 0x69, 0x63]).map (fun is => (is.map encode).getLast?) =
      some (some 0x2503F000#32) := by decide

/-- R187, R188: a word count that is none of the five, an unknown word, and CHK's 0 all make `check` false, and the block
is clear afterwards; the error kinds are those of the table. The checksum row starts from V24 (I[11] = 4). -/
theorem test_check_false :
    check ⟨256, 256⟩ (fun _ => 0x37) (some []) matching.toBlockState = (BlockState.reset true, false) ∧
    check ⟨256, 256⟩ (fun _ => 0x37) none matching.toBlockState = (BlockState.reset true, false) ∧
    failureOfErr 2#4 = .source .invalidArgument ∧ sourceErrorOfChk 0#32 = some .checksumError := by decide

/-- A fault response ends the operation: the host reads the cause and clears the block (R187, R188). -/
theorem test_operation_after_fault :
    (match toMnemonic ⟨256, 256⟩ (fun _ => 0) [] matching.toBlockState with
      | (b, .error e) => (b, some e)
      | (b, .ok _) => (b, none)) = (BlockState.reset true, some (.source .invalidArgument)) := by decide

/-- R24: the run ends with the list; the responses are those of V40 and P3 row 13, and the reset input gives none. -/
theorem test_run :
    run ⟨256, 256⟩ [.command 0x10000010#32, .command 0x02000000#32, .reset] ko.toBlockState =
      (BlockState.reset true, [0#32, 0x21#32]) := by decide

/-! ## Witnesses: for each statement with hypotheses, a state and operands that meet all of them, clause by clause -/

/-- The KO after `PW` = "p" and `SALT` = "mn". -/
def loaded : KoState :=
  { KoState.reset with pw := [(0, 0x70)], pwLen := 1#12, salt := [(0, 0x6D), (1, 0x6E)], saltLen := 2#12 }

/-- The KO after `KRUN` besides. -/
def ran : KoState := { loaded with kdone := true, seed := derivedSeed loaded }

/-- A block with these KO fields, and with `MATCH` = 1. -/
def derived : State := { matching with ko := some ran }

/-- `ko` with `SEL` selecting the row of 16 bytes. -/
def first : State := { ko with sel := 1#3 }

/-- `ko` with `SEL` selecting the row of 32 bytes. -/
def last : State := { ko with sel := 5#3 }

theorem reset_ko_inv : KoState.reset.Inv ⟨256, 256⟩ where
  pwLen_le := by decide
  saltLen_le := by decide
  pw_wf := Memory.wf_nil
  salt_wf := Memory.wf_nil
  pw_bound := by decide
  salt_bound := by decide
  seed_derived h := nomatch h
  seed_zero _ := rfl

theorem ran_inv : ran.Inv ⟨256, 256⟩ where
  pwLen_le := by decide
  saltLen_le := by decide
  pw_wf := by decide
  salt_wf := by decide
  pw_bound := by decide
  salt_bound := by decide
  seed_derived _ := rfl
  seed_zero h := nomatch h

theorem ko_inv : ko.Inv where
  sizes_wf := by decide
  sel_le := by decide
  err_le := by decide
  match_holds h := nomatch h
  ko_inv _ h := Option.some.inj h ▸ reset_ko_inv

theorem derived_inv : derived.Inv where
  sizes_wf := by decide
  sel_le := by decide
  err_le := by decide
  match_holds _ := ⟨⟨16, 4, 12⟩, by decide, by decide⟩
  ko_inv _ h := Option.some.inj h ▸ ran_inv

theorem noKo_inv : noKo.Inv where
  sizes_wf := by decide
  sel_le := by decide
  err_le := by decide
  match_holds h := nomatch h
  ko_inv _ h := nomatch h

theorem witness_DecodeOfEncodeIsTheCommand :
    Instr.chk.WellFormed ∧ (Instr.setlen 4095).WellFormed ∧ (Instr.klds 4095 255).WellFormed ∧
      (Instr.ldi 4095 2047).WellFormed := by decide

theorem witness_EncodeOfDecodeIsTheWord :
    decode 0x22FFF0FF#32 = .command (.kldp 4095 255) ∧ decode 0x15FFF7FF#32 = .command (.ldi 4095 2047) := by decide

theorem witness_IllFormedOperandRaisesIllegalCommand :
    ¬ (Instr.lde 0 0x100).WellFormed ∧ ¬ (Instr.ldi 0 0x800).WellFormed ∧ ko.err = 0#4 := by decide

theorem witness_ReservedOpcodeIsIllegal :
    ko.err = 0#4 ∧
      0x03 ≤ ((0x03000000#32 : Word).extractLsb' 24 8).toNat ∧ ((0x0F000000#32 : Word).extractLsb' 24 8).toNat ≤ 0x0F ∧
      0x1B ≤ ((0x1B000000#32 : Word).extractLsb' 24 8).toNat ∧ ((0x1F000000#32 : Word).extractLsb' 24 8).toNat ≤ 0x1F ∧
      0x26 ≤ ((0x26000000#32 : Word).extractLsb' 24 8).toNat ∧
      ((0xFF000000#32 : Word).extractLsb' 24 8).toNat ≤ 0xFF := by decide

theorem witness_MustBeZeroBitsAreIllegal :
    ko.err = 0#4 ∧
      ((0x10001010#32 : Word).extractLsb' 24 8 = 0x10#8 ∧ (0x10001010#32 : Word).extractLsb' 12 12 ≠ 0#12) ∧
      ((0x01000001#32 : Word).extractLsb' 24 8 = 0x01#8 ∧ (0x01000001#32 : Word).extractLsb' 0 12 ≠ 0#12) ∧
      ((0x12000100#32 : Word).extractLsb' 24 8 = 0x12#8 ∧ (0x12000100#32 : Word).extractLsb' 8 4 ≠ 0#4) ∧
      ((0x15000800#32 : Word).extractLsb' 24 8 = 0x15#8 ∧ (0x15000800#32 : Word).extractLsb' 11 1 ≠ 0#1) := by decide

theorem witness_KoOpcodesAreIllegalWithoutKo :
    noKo.err = 0#4 ∧ noKo.ko = none ∧
      0x20 ≤ ((0x20000001#32 : Word).extractLsb' 24 8).toNat ∧
      ((0x25000000#32 : Word).extractLsb' 24 8).toNat ≤ 0x25 := by decide

theorem witness_StepRunsTheDecodedCommand :
    (ko.withCommand 0x1500B004#32).input = .command 0x1500B004#32 :: [] ∧
      decode 0x1500B004#32 = .command (.ldi 11 4) := by decide

theorem witness_StepOnAnIllegalWord :
    (ko.withCommand 0x03000000#32).input = .command 0x03000000#32 :: [] ∧
      decode 0x03000000#32 = .illegal .reservedOpcode ∧
      (ko.withCommand 0x03000000#32).err = 0#4 ∧ (faulted.withCommand 0x03000000#32).err ≠ 0#4 := by decide

theorem witness_ResetInputClearsTheBlock :
    { matching with input := [.reset, .command 0#32] }.input = .reset :: [.command 0#32] := by decide

theorem witness_BlockHoldsItsStateBetweenCommands : matching.input = [] := by decide

theorem witness_EveryCommandReturnsOneResponse :
    (ko.withCommand 0x18000000#32).input = .command 0x18000000#32 :: [] ∧
      statusAfter ko 0x18000000#32 = some (0x320#32, some 0x80000000#32) ∧
      statusAfter faulted 0x02000000#32 = some (0x520#32, some 0x520#32) ∧
      { matching with input := [.command 0x1A000000#32, .reset], output := [1#32] }.toBlockState =
        { matching with input := [.command 0x1A000000#32] }.toBlockState := by decide

theorem witness_FaultChangesOnlyErrAndAnswers :
    ko.err = 0#4 ∧ exec .pack ko = .next (nextOf (exec .pack ko)) ∧ (nextOf (exec .pack ko)).err ≠ 0#4 :=
  ⟨by decide, rfl, by decide⟩

theorem witness_FaultedBlockPerformsOnlyRdsAndClr :
    faulted.err ≠ 0#4 ∧ 0x01000001#32 ≠ 0x02000000#32 ∧ 0x01000001#32 ≠ 0x01000000#32 := by decide

theorem witness_FirstCauseIsKeptUntilClear :
    (faulted.withCommand 0x10000011#32).err ≠ 0#4 ∧
      step (faulted.withCommand 0x10000011#32) = .next (nextOf (step (faulted.withCommand 0x10000011#32))) ∧
      step (faulted.withCommand 0x01000000#32) = .next (nextOf (step (faulted.withCommand 0x01000000#32))) ∧
      (nextOf (step (faulted.withCommand 0x01000000#32))).err = 0#4 :=
  ⟨by decide, rfl, rfl, by decide⟩

theorem witness_CommandsRaiseOnlyTheirOwnCauses :
    ko.err = 0#4 ∧ exec (.krds 0) ko = .next (nextOf (exec (.krds 0) ko)) ∧ (nextOf (exec (.krds 0) ko)).err = 6#4 ∧
      exec (.krds 64) ko = .next (nextOf (exec (.krds 64) ko)) ∧ (nextOf (exec (.krds 64) ko)).err = 4#4 :=
  ⟨by decide, rfl, by decide, rfl, by decide⟩

theorem witness_DataNeverFaults :
    first.sel = { first with csx := 9#8 }.sel ∧ first.err = { first with csx := 9#8 }.err ∧
      first.ko.map KoState.kdone = { first with csx := 9#8 }.ko.map KoState.kdone ∧
      first.sizes = { first with csx := 9#8 }.sizes ∧
      exec .chk first = .next (nextOf (exec .chk first)) ∧
      exec .chk { first with csx := 9#8 } = .next (nextOf (exec .chk { first with csx := 9#8 })) :=
  ⟨rfl, rfl, rfl, rfl, rfl, rfl⟩

/-- Every command with its operands at the top of their ranges. -/
theorem witness_WellBehavedHostNeverFaults :
    derived.err = 0#4 ∧ derived.hasKo = true ∧
      (∀ i ∈ [Instr.nop, .clr, .rds, .setlen 32, .setwc 24, .lde 31 255, .rde 31, .ldh 255, .ldi 23 2047, .rdi 23, .rdc,
        .pack, .unpack, .chk, .ksetp 256, .ksets 256, .kldp 255 255, .klds 255 255, .krun, .krds 63], i.WellFormed) ∧
      (Instr.setlen 32).inRange derived ∧ (Instr.setwc 24).inRange derived ∧ (Instr.lde 31 255).inRange derived ∧
      (Instr.rde 31).inRange derived ∧ (Instr.ldi 23 2047).inRange derived ∧ (Instr.rdi 23).inRange derived ∧
      Instr.pack.inRange derived ∧ (Instr.ksetp 256).inRange derived ∧ (Instr.ksets 256).inRange derived ∧
      (Instr.kldp 255 255).inRange derived ∧ (Instr.klds 255 255).inRange derived ∧
      (Instr.krds 63).inRange derived := by
  simp only [Instr.inRange]
  and_intros <;> decide

theorem witness_NopDoesNothing :
    matching.err = 0#4 ∧ faulted.err ≠ 0#4 ∧ (1#12 ≠ 0#12 ∨ 0#12 ≠ 0#12) ∧ (0#12 ≠ 0#12 ∨ 1#12 ≠ 0#12) := by decide

theorem witness_ClrGivesEveryFieldItsResetValue :
    exec .clr matching = .next (nextOf (exec .clr matching)) ∧ (0#12 ≠ 0#12 ∨ 1#12 ≠ 0#12) ∧ matching.err = 0#4 ∧
      faulted.err ≠ 0#4 :=
  ⟨rfl, by decide, by decide, by decide⟩

theorem witness_RdsAnswersStatus :
    (4095#12 ≠ 0#12 ∨ 0#12 ≠ 0#12) ∧ derived.err = 0#4 ∧ faulted.err ≠ 0#4 := by decide

theorem witness_LengthTableHasTheFiveRows :
    lengthRow 1#3 = some ⟨16, 4, 12⟩ ∧ lengthRow 5#3 = some ⟨32, 8, 24⟩ ∧ rowOfWords 24 = some ⟨32, 8, 24⟩ := by decide

theorem witness_SetlenSelectsByEntropyLength :
    ko.err = 0#4 ∧
      (16#12, 1#3) ∈ [(16#12, 1#3), (20#12, 2#3), (24#12, 3#3), (28#12, 4#3), (32#12, 5#3)] ∧
      (32#12, 5#3) ∈ [(16#12, 1#3), (20#12, 2#3), (24#12, 3#3), (28#12, 4#3), (32#12, 5#3)] ∧
      15#12 ∉ [16#12, 20#12, 24#12, 28#12, 32#12] ∧ 33#12 ∉ [16#12, 20#12, 24#12, 28#12, 32#12] ∧
      1#12 ≠ 0#12 := by decide

theorem witness_SetwcSelectsByWordCount :
    ko.err = 0#4 ∧
      (12#12, 1#3) ∈ [(12#12, 1#3), (15#12, 2#3), (18#12, 3#3), (21#12, 4#3), (24#12, 5#3)] ∧
      (24#12, 5#3) ∈ [(12#12, 1#3), (15#12, 2#3), (18#12, 3#3), (21#12, 4#3), (24#12, 5#3)] ∧
      11#12 ∉ [12#12, 15#12, 18#12, 21#12, 24#12] ∧ 25#12 ∉ [12#12, 15#12, 18#12, 21#12, 24#12] ∧
      1#12 ≠ 0#12 := by decide

theorem witness_LdeWritesOneEntropyByte :
    matching.err = 0#4 ∧ (255#12).extractLsb' 8 4 = 0#4 ∧ (31#12).toNat < 32 ∧ 32 ≤ (32#12).toNat ∧
      (256#12).extractLsb' 8 4 ≠ 0#4 := by decide

theorem witness_RdeReadsOneEntropyByte :
    matching.err = 0#4 ∧ (31#12).toNat < 32 ∧ 32 ≤ (32#12).toNat ∧ 1#12 ≠ 0#12 := by decide

theorem witness_LdhWritesTheHashByte :
    matching.err = 0#4 ∧ (255#12).extractLsb' 8 4 = 0#4 ∧ (256#12).extractLsb' 8 4 ≠ 0#4 ∧
      (1#12 ≠ 0#12 ∨ (255#12).extractLsb' 8 4 ≠ 0#4) := by decide

theorem witness_LdiWritesOneIndex :
    matching.err = 0#4 ∧ (2047#12).extractLsb' 11 1 = 0#1 ∧ (23#12).toNat < 24 ∧ 24 ≤ (24#12).toNat ∧
      (2048#12).extractLsb' 11 1 ≠ 0#1 := by decide

theorem witness_RdiReadsOneIndex :
    matching.err = 0#4 ∧ (23#12).toNat < 24 ∧ 24 ≤ (24#12).toNat ∧ 1#12 ≠ 0#12 := by decide

theorem witness_RdcAnswersTheChecksumBits :
    last.err = 0#4 ∧ (1#12 ≠ 0#12 ∨ 0#12 ≠ 0#12) ∧ lengthRow last.sel = some ⟨32, 8, 24⟩ ∧
      exec .unpack last = .next (nextOf (exec .unpack last)) :=
  ⟨by decide, by decide, by decide, rfl⟩

theorem witness_PackWritesTheIndices :
    first.err = 0#4 ∧ last.err = 0#4 ∧ lengthRow first.sel = some ⟨16, 4, 12⟩ ∧
      lengthRow last.sel = some ⟨32, 8, 24⟩ ∧ ko.err = 0#4 ∧ ko.sel = 0#3 ∧
      (0#12 ≠ 0#12 ∨ 1#12 ≠ 0#12) := by decide

theorem witness_UnpackWritesEntropyAndChecksum :
    first.err = 0#4 ∧ last.err = 0#4 ∧ lengthRow first.sel = some ⟨16, 4, 12⟩ ∧
      lengthRow last.sel = some ⟨32, 8, 24⟩ ∧ ko.err = 0#4 ∧ ko.sel = 0#3 ∧
      (0#12 ≠ 0#12 ∨ 1#12 ≠ 0#12) := by decide

theorem witness_ChkComparesTheChecksumBits :
    matching.err = 0#4 ∧ 1 ≤ matching.sel.toNat ∧ matching.sel.toNat ≤ 5 ∧
      matching.csx.toNat = matching.hash0.toNat >>> (8 - (3 + matching.sel.toNat)) ∧
      1 ≤ last.sel.toNat ∧ last.sel.toNat ≤ 5 ∧
      { last with hash0 := 1#8 }.csx.toNat ≠ { last with hash0 := 1#8 }.hash0.toNat >>> (8 - (3 + last.sel.toNat)) ∧
      ko.sel = 0#3 ∧ (0#12 ≠ 0#12 ∨ 1#12 ≠ 0#12) := by decide

theorem witness_KsetpSetsThePasswordLength :
    derived.err = 0#4 ∧ derived.ko = some ran ∧ (256#12).toNat ≤ derived.sizes.pwMax ∧ derived.hasKo = true ∧
      derived.sizes.pwMax < (257#12).toNat ∧ noKo.err = 0#4 ∧ noKo.ko = none ∧ 1#12 ≠ 0#12 :=
  ⟨rfl, rfl, by decide, rfl, by decide, rfl, rfl, by decide⟩

theorem witness_KsetsSetsTheSaltLength :
    derived.err = 0#4 ∧ derived.ko = some ran ∧ (256#12).toNat ≤ derived.sizes.saltMax ∧ derived.hasKo = true ∧
      derived.sizes.saltMax < (257#12).toNat ∧ noKo.err = 0#4 ∧ noKo.ko = none ∧ 1#12 ≠ 0#12 :=
  ⟨rfl, rfl, by decide, rfl, by decide, rfl, rfl, by decide⟩

theorem witness_KldpWritesOnePasswordByte :
    derived.err = 0#4 ∧ derived.ko = some ran ∧ ran.pw.wf ∧ (255#12).extractLsb' 8 4 = 0#4 ∧
      (255#12).toNat < derived.sizes.pwMax ∧ derived.hasKo = true ∧ derived.sizes.pwMax ≤ (256#12).toNat ∧
      noKo.err = 0#4 ∧ noKo.ko = none ∧ (256#12).extractLsb' 8 4 ≠ 0#4 :=
  ⟨rfl, rfl, by decide, by decide, by decide, rfl, by decide, rfl, rfl, by decide⟩

theorem witness_KldsWritesOneSaltByte :
    derived.err = 0#4 ∧ derived.ko = some ran ∧ ran.salt.wf ∧ (255#12).extractLsb' 8 4 = 0#4 ∧
      (255#12).toNat < derived.sizes.saltMax ∧ derived.hasKo = true ∧ derived.sizes.saltMax ≤ (256#12).toNat ∧
      noKo.err = 0#4 ∧ noKo.ko = none ∧ (256#12).extractLsb' 8 4 ≠ 0#4 :=
  ⟨rfl, rfl, by decide, by decide, by decide, rfl, by decide, rfl, rfl, by decide⟩

theorem witness_KrunDerivesTheSeed :
    derived.err = 0#4 ∧ derived.ko = some ran ∧ noKo.err = 0#4 ∧ noKo.ko = none ∧
      (0#12 ≠ 0#12 ∨ 1#12 ≠ 0#12) :=
  ⟨rfl, rfl, rfl, rfl, by decide⟩

theorem witness_KrdsReadsOneSeedByte :
    derived.err = 0#4 ∧ derived.ko = some ran ∧ (63#12).toNat < 64 ∧ ran.kdone = true ∧ derived.hasKo = true ∧
      64 ≤ (64#12).toNat ∧ ko.err = 0#4 ∧ ko.ko = some KoState.reset ∧ KoState.reset.kdone = false ∧
      noKo.err = 0#4 ∧ noKo.ko = none ∧ 1#12 ≠ 0#12 :=
  ⟨rfl, rfl, by decide, rfl, rfl, by decide, rfl, rfl, rfl, rfl, rfl, by decide⟩

theorem witness_ResetSatisfiesTheInvariant : (⟨⟨1, 4095⟩, true⟩ : Params).wf ∧ (⟨⟨4095, 1⟩, false⟩ : Params).wf := by decide

theorem witness_EveryStepKeepsTheInvariant :
    derived.Inv ∧ step derived = .next derived ∧ ko.Inv ∧ noKo.Inv ∧
      { ko with input := [.command 0x24000000#32] }.Inv ∧
      step { ko with input := [.command 0x24000000#32] } =
        .next (nextOf (step { ko with input := [.command 0x24000000#32] })) :=
  ⟨derived_inv, rfl, ko_inv, noKo_inv, { ko_inv with }, rfl⟩

theorem witness_MatchOutlivesNoChange :
    exec .nop matching = .next (nextOf (exec .nop matching)) ∧ (nextOf (exec .nop matching)).matched = true ∧
      exec .chk matching = .next (nextOf (exec .chk matching)) ∧ (nextOf (exec .chk matching)).matched = true :=
  ⟨rfl, by decide, rfl, by decide⟩

theorem witness_EveryCommandWritesOnlyItsColumns :
    exec (.lde 31 0xFF) matching = .next (nextOf (exec (.lde 31 0xFF) matching)) ∧ Instr.lde 31 0xFF ≠ .clr ∧
      exec .unpack matching = .next (nextOf (exec .unpack matching)) ∧ Instr.unpack ≠ .clr ∧
      exec (.kldp 255 1) derived = .next (nextOf (exec (.kldp 255 1) derived)) ∧ Instr.kldp 255 1 ≠ .clr :=
  ⟨rfl, by decide, rfl, by decide, rfl, by decide⟩

theorem witness_ReadsChangeNoStateAndRepeat :
    (Instr.krds 63).isRead = true ∧ derived.err = 0#4 ∧ exec (.krds 63) derived = .next (nextOf (exec (.krds 63) derived)) ∧
      (nextOf (exec (.krds 63) derived)).err = 0#4 :=
  ⟨by decide, by decide, rfl, by decide⟩

theorem witness_SuccessfulKrdsReturnsTheCurrentSeed :
    derived.Inv ∧ derived.err = 0#4 ∧ exec (.krds 0) derived = .next (nextOf (exec (.krds 0) derived)) ∧
      (nextOf (exec (.krds 0) derived)).err = 0#4 :=
  ⟨derived_inv, by decide, rfl, by decide⟩

/-- The two states differ in everything the results may not depend on, the low bits of HASH0 included. -/
theorem witness_ResultsDependOnlyOnNamedInputs :
    let r : LengthRow := ⟨16, 4, 12⟩
    let s := first
    let s' := { first with ent := first.ent.setIfInBounds 31 1, idx := first.idx.setIfInBounds 23 1, hash0 := 0x0F#8 }
    let v := { s' with hash0 := s.hash0 }
    let l := { ran with pw := [(0, 0x70), (1, 1)], kdone := false }
    let u' := { derived with ko := some l }
    s.err = 0#4 ∧ s'.err = 0#4 ∧ lengthRow s.sel = some r ∧ s'.sel = s.sel ∧
      (∀ j, j < r.len → s.ent[j]? = s'.ent[j]?) ∧ hashBits r.cs s.hash0 = hashBits r.cs s'.hash0 ∧
      (∀ j, j < r.words → s.idx[j]? = s'.idx[j]?) ∧ v.err = 0#4 ∧ v.sel = s.sel ∧ v.csx = s.csx ∧
      v.hash0 = s.hash0 ∧ derived.err = 0#4 ∧ u'.err = 0#4 ∧ l.pwLen = ran.pwLen ∧ l.saltLen = ran.saltLen ∧
      (∀ x, x < ran.pwLen.toNat → ran.pw.read x = l.pw.read x) ∧
      (∀ x, x < ran.saltLen.toNat → ran.salt.read x = l.salt.read x) ∧ derived.ko = some ran ∧ u'.ko = some l := by
  intro r s s' v l u'
  and_intros <;> first | rfl | decide

theorem witness_PasswordAndSaltCannotBeReadBack :
    Instr.krds 0 ≠ .krun ∧ exec (.krds 0) derived = .next (nextOf (exec (.krds 0) derived)) :=
  ⟨by decide, rfl⟩

/-- For the functions pack and unpack: the first and the last row, with entropies and sentences of their lengths. -/
theorem witness_PackReadsBitsMostSignificantFirst :
    (⟨16, 4, 12⟩ : LengthRow) ∈ lengthTable ∧ (List.replicate 16 (0x80 : Byte)).length = 16 ∧
      (⟨32, 8, 24⟩ : LengthRow) ∈ lengthTable ∧ (List.replicate 32 (0xFF : Byte)).length = 32 := by decide

/-- The premises on B of PackReadsBitsMostSignificantFirst hold of the string of zeros for zero bytes. -/
theorem witness_PackReadsBits_string :
    (∀ p, p < 8 * 16 → false = ((List.replicate 16 (0 : Byte)).getD (p / 8) 0#8).getLsbD (7 - p % 8)) ∧
      ∀ k, k < 4 → false = (0#8).getLsbD (7 - k) := by decide

theorem witness_UnpackReadsBitsMostSignificantFirst :
    (⟨16, 4, 12⟩ : LengthRow) ∈ lengthTable ∧ (List.replicate 12 (0 : Index)).length = 12 ∧
      (⟨32, 8, 24⟩ : LengthRow) ∈ lengthTable ∧ (List.replicate 24 (2047 : Index)).length = 24 ∧
      ∀ j < 12, ∀ t ≤ 10, false = ((List.replicate 12 (0 : Index)).getD j 0#11).getLsbD (10 - t) := by decide

theorem witness_PackAndUnpackEqualTheirIntegerForms :
    (⟨16, 4, 12⟩ : LengthRow) ∈ lengthTable ∧ (List.replicate 16 (0x80 : Byte)).length = 16 ∧
      (List.replicate 12 (0 : Index)).length = 12 ∧
      0 = ((List.range 12).map fun j => ((List.replicate 12 (0 : Index)).getD j 0#11).toNat <<< (11 * (12 - 1 - j))).sum := by
  decide

theorem witness_UnpackOfPackIsTheEntropyAndChecksum :
    (⟨28, 7, 21⟩ : LengthRow) ∈ lengthTable ∧ (List.replicate 28 (0xFF : Byte)).length = 28 := by decide

/-- V11: eleven zeros and 3, whose checksum 3 is the top of the hash byte 0x37. -/
theorem witness_PackOfUnpackIsTheSentence :
    (⟨16, 4, 12⟩ : LengthRow) ∈ lengthTable ∧ (List.replicate 11 (0 : Index) ++ [3]).length = 12 ∧
      (0x37#8) >>> (8 - 4) = unpackChecksum ⟨16, 4, 12⟩ (List.replicate 11 (0 : Index) ++ [3]) := by decide

theorem witness_OnlyTheLastIndexCarriesTheChecksum :
    (⟨20, 5, 15⟩ : LengthRow) ∈ lengthTable ∧ (List.replicate 20 (0xFF : Byte)).length = 20 := by decide

theorem witness_PackUnpackChkRoundTrip :
    first.err = 0#4 ∧ lengthRow first.sel = some ⟨16, 4, 12⟩ ∧ last.err = 0#4 ∧
      lengthRow last.sel = some ⟨32, 8, 24⟩ := by decide

theorem witness_AssemblerEmitsOnlyCommandWords :
    assemble ⟨1, 1⟩ "KLDPW 70\nKRDS 63" = some [0x20000001#32, 0x22000070#32, 0x2503F000#32] ∧
      assemble ⟨1, 1⟩ "KLDPW 7071" = none := by decide

theorem witness_PseudoInstructionsLoadAndReadTheBuffers :
    derived.toBlockState.err = 0#4 ∧ 1 ≤ (List.replicate 32 (0xFF : Byte)).length ∧
      (List.replicate 32 (0xFF : Byte)).length ≤ 32 ∧ 1 ≤ (List.replicate 24 (2047 : Index)).length ∧
      (List.replicate 24 (2047 : Index)).length ≤ 24 ∧ derived.toBlockState.ko = some ran ∧
      (⟨256, 256⟩ : BufferSizes).wf ∧ ran.pw.wf ∧ ran.salt.wf ∧ (List.replicate 256 (1 : Byte)).length ≤ 256 ∧
      ran.kdone = true := by
  simp only [List.length_replicate]
  exact ⟨rfl, by decide, by decide, by decide, by decide, rfl, by decide, by decide, by decide, by decide, rfl⟩

theorem witness_KdfIsTheExclusiveOrOfAllOutputs : 0 < 64 ∧ 63 < 64 := by decide

end Sys2Proof.Tests
end

/-! SUPPORT. The invariant of every reachable state (State.Inv): it holds after reset, and every operation, hence every
command and every step, keeps it. -/

namespace Sys2Proof.Machine

/-! ## The KO's fields -/

theorem KoState.reset_inv (z : BufferSizes) : KoState.reset.Inv z where
  pwLen_le := Nat.zero_le _
  saltLen_le := Nat.zero_le _
  pw_wf := Memory.wf_nil
  salt_wf := Memory.wf_nil
  pw_bound := by simp
  salt_bound := by simp
  seed_derived := by simp
  seed_zero _ := rfl

section
variable {z : BufferSizes} {k : KoState} (hk : k.Inv z)
include hk

theorem KoState.Inv.setPwLen {v : BitVec 12} (hv : v.toNat ≤ z.pwMax) : (k.setPwLen v).clearSeed.Inv z :=
  { hk with pwLen_le := hv, seed_derived := nofun, seed_zero := fun _ => rfl }

theorem KoState.Inv.setSaltLen {v : BitVec 12} (hv : v.toNat ≤ z.saltMax) : (k.setSaltLen v).clearSeed.Inv z :=
  { hk with saltLen_le := hv, seed_derived := nofun, seed_zero := fun _ => rfl }

theorem KoState.Inv.writePw {x : Nat} (hx : x < z.pwMax) (b : Byte) :
    (k.setPw (k.pw.write x b)).clearSeed.Inv z :=
  { hk with
    pw_wf := Memory.write_wf hk.pw_wf x b
    pw_bound := Memory.write_bound hk.pw_bound hx
    seed_derived := nofun
    seed_zero := fun _ => rfl }

theorem KoState.Inv.writeSalt {x : Nat} (hx : x < z.saltMax) (b : Byte) :
    (k.setSalt (k.salt.write x b)).clearSeed.Inv z :=
  { hk with
    salt_wf := Memory.write_wf hk.salt_wf x b
    salt_bound := Memory.write_bound hk.salt_bound hx
    seed_derived := nofun
    seed_zero := fun _ => rfl }

/-- The derivation reads neither `SEED` nor `KDONE`, so it is still the one of the fields it is written into (R165). -/
theorem KoState.Inv.setSeed_derived : (k.setSeed (derivedSeed k) true).Inv z :=
  { hk with seed_derived := fun _ => rfl, seed_zero := nofun }

end

/-! ## Reset -/

/-- A block whose R20 fields have their reset values needs only legal sizes. -/
theorem State.inv_of_reset {t : State} {hasKo : Bool} (ht : t.toBlockState = BlockState.reset hasKo)
    (hz : t.sizes.wf) : t.Inv where
  sizes_wf := hz
  sel_le := by simp [ht]
  err_le := by simp [ht]
  match_holds := by simp [ht]
  ko_inv k hk := by
    have hreset : k = KoState.reset := by cases hasKo <;> simp_all
    exact hreset ▸ KoState.reset_inv _

theorem State.resetWith_inv {p : Params} (hp : p.wf) : (State.resetWith p).Inv :=
  State.inv_of_reset (hasKo := p.hasKo) rfl hp

/-- The open sizes are one more than a number below 4095 (R6). -/
theorem params_wf : Config.params.wf :=
  ⟨⟨Nat.succ_pos _, Config.pwMaxPred.isLt⟩, Nat.succ_pos _, Config.saltMaxPred.isLt⟩

/-! ## What a command or a step keeps -/

/-- From `s` the block may go to `t`: the invariant holds there, and the KO is there and the sizes are as they were. -/
structure InvKept (s t : State) : Prop where
  inv : t.Inv
  hasKo_eq : t.hasKo = s.hasKo
  sizes_eq : t.sizes = s.sizes

theorem InvKept.trans {s t u : State} (hst : InvKept s t) (htu : InvKept t u) : InvKept s u :=
  ⟨htu.inv, htu.hasKo_eq.trans hst.hasKo_eq, htu.sizes_eq.trans hst.sizes_eq⟩

/-- The response is no part of the invariant. -/
theorem InvKept.respond {s t : State} (h : InvKept s t) (v : Word) : InvKept s (respond v t) :=
  ⟨{ h.inv with }, h.hasKo_eq, h.sizes_eq⟩

section
variable {s : State} (hs : s.Inv)
include hs

theorem State.Inv.invKept_self : InvKept s s := ⟨hs, rfl, rfl⟩

theorem State.Inv.invKept_setInput (v : List PortEvent) : InvKept s (s.setInput v) := ⟨{ hs with }, rfl, rfl⟩

theorem State.Inv.invKept_clear : InvKept s s.clear where
  inv := State.inv_of_reset s.clear_toBlockState hs.sizes_wf
  hasKo_eq := by cases h : s.ko <;> simp [BlockState.hasKo, h]
  sizes_eq := rfl

theorem State.Inv.invKept_ignored : InvKept s (ignored s) := hs.invKept_self.respond _

theorem State.Inv.invKept_raise (c : Cause) : InvKept s (raise c s) :=
  have herr : (causeCode c).toNat ≤ 7 := by cases c <;> decide
  InvKept.respond (s := s) (t := s.setErr (causeCode c)) ⟨{ hs with err_le := herr }, rfl, rfl⟩ _

/-- A PU command may write `ENT`, `IDX`, `HASH0` and `CSX` as it likes when it clears `MATCH` (R28). -/
theorem State.Inv.invKept_respond_clearMatch {t : State} (v : Word) (hsel : t.sel.toNat ≤ 5) (herr : t.err = s.err)
    (hko : t.ko = s.ko) (hsizes : t.sizes = s.sizes) : InvKept s (respond v t.clearMatch) where
  inv :=
    { sizes_wf := hsizes ▸ hs.sizes_wf
      sel_le := hsel
      err_le := herr ▸ hs.err_le
      match_holds := nofun
      ko_inv := fun k hk => hsizes ▸ hs.ko_inv k (hko ▸ hk) }
  hasKo_eq := congrArg Option.isSome hko
  sizes_eq := hsizes

/-- What `CHK` puts into `MATCH` is 1 only where the checksum bits agree (R146). -/
theorem State.Inv.invKept_setMatched {r : LengthRow} (hr : lengthRow s.sel = some r) :
    InvKept s (s.setMatched (checksumMatches r s)) :=
  ⟨{ hs with match_holds := fun h => ⟨r, hr, eq_of_beq h⟩ }, rfl, rfl⟩

/-- A KO command writes the KO's fields of a block that has them. -/
theorem State.Inv.invKept_respond_setKo {k k' : KoState} (v : Word) (hk : s.ko = some k) (hk' : k'.Inv s.sizes) :
    InvKept s (respond v (s.setKo k')) where
  inv := { hs with ko_inv := fun _ h => Option.some.inj h ▸ hk' }
  hasKo_eq := by simp [BlockState.hasKo, hk]
  sizes_eq := rfl

/-! ## The guards of the commands: what they raise or ignore keeps the invariant -/

theorem State.Inv.invKept_whenLive {t : State} (ht : InvKept s t) : InvKept s (whenLive s t) := by
  obtain ⟨-, h⟩ | ⟨-, h⟩ := whenLive_cases s t <;> rw [h]
  · exact hs.invKept_ignored
  · exact ht

theorem State.Inv.invKept_whenKo {f : KoState → State}
    (hf : ∀ k, s.ko = some k → k.Inv s.sizes → InvKept s (f k)) : InvKept s (whenKo s f) := by
  obtain ⟨-, h⟩ | ⟨-, -, h⟩ | ⟨k, -, hk, h⟩ := whenKo_cases s f <;> rw [h]
  · exact hs.invKept_ignored
  · exact hs.invKept_raise _
  · exact hf k hk (hs.ko_inv k hk)

theorem State.Inv.invKept_withOperand {α : Type} {o : Option α} {f : α → State} (hf : ∀ v, InvKept s (f v)) :
    InvKept s (withOperand o s f) := by
  obtain h | ⟨v, -, h⟩ := withOperand_cases o s f <;> rw [h]
  · exact hs.invKept_raise _
  · exact hf v

theorem State.Inv.invKept_withAddress {a : Field} {n : Nat} {f : Nat → State} (hf : ∀ x, x < n → InvKept s (f x)) :
    InvKept s (withAddress a n s f) := by
  obtain h | ⟨ha, h⟩ := withAddress_cases a n s f <;> rw [h]
  · exact hs.invKept_raise _
  · exact hf _ ha

theorem State.Inv.invKept_withLength {f : LengthRow → State}
    (hf : ∀ r, lengthRow s.sel = some r → InvKept s (f r)) : InvKept s (withLength s f) := by
  obtain h | ⟨r, hr, h⟩ := withLength_cases s f <;> rw [h]
  · exact hs.invKept_raise _
  · exact hf r hr

theorem State.Inv.invKept_selectRow {row : Option (BitVec 3)} (hrow : ∀ v, row = some v → v.toNat ≤ 5) (c : Cause) :
    InvKept s (selectRow row c s) := by
  obtain h | ⟨v, hv, h⟩ := selectRow_cases row c s <;> rw [h]
  · exact hs.invKept_raise _
  · exact hs.invKept_respond_clearMatch (t := s.setSel v) _ (hrow v hv) rfl rfl rfl

/-! ## The commands and the step -/

theorem exec_invKept (i : Instr) : ∃ t, exec i s = .next t ∧ InvKept s t := by
  have read (v : Word) : InvKept s (respond v s) := hs.invKept_self.respond v
  cases i with
  | nop => exact ⟨_, rfl, hs.invKept_whenLive (read _)⟩
  | clr => exact ⟨_, rfl, hs.invKept_clear.respond _⟩
  | rds => exact ⟨_, rfl, read _⟩
  | setlen d =>
    exact ⟨_, rfl, hs.invKept_whenLive (hs.invKept_selectRow (fun _ hv => (selOfLength_le hv).1) _)⟩
  | setwc d =>
    exact ⟨_, rfl, hs.invKept_whenLive (hs.invKept_selectRow (fun _ hv => (selOfWordCount_le hv).1) _)⟩
  | lde a d =>
    exact ⟨_, rfl, hs.invKept_whenLive (hs.invKept_withOperand fun _ => hs.invKept_withAddress fun _ _ =>
      hs.invKept_respond_clearMatch _ hs.sel_le rfl rfl rfl)⟩
  | rde a => exact ⟨_, rfl, hs.invKept_whenLive (hs.invKept_withAddress fun _ _ => read _)⟩
  | ldh d =>
    exact ⟨_, rfl, hs.invKept_whenLive (hs.invKept_withOperand fun _ =>
      hs.invKept_respond_clearMatch _ hs.sel_le rfl rfl rfl)⟩
  | ldi a d =>
    exact ⟨_, rfl, hs.invKept_whenLive (hs.invKept_withOperand fun _ => hs.invKept_withAddress fun _ _ =>
      hs.invKept_respond_clearMatch _ hs.sel_le rfl rfl rfl)⟩
  | rdi a => exact ⟨_, rfl, hs.invKept_whenLive (hs.invKept_withAddress fun _ _ => read _)⟩
  | rdc => exact ⟨_, rfl, hs.invKept_whenLive (read _)⟩
  | pack =>
    exact ⟨_, rfl, hs.invKept_whenLive (hs.invKept_withLength fun _ _ =>
      hs.invKept_respond_clearMatch _ hs.sel_le rfl rfl rfl)⟩
  | unpack =>
    exact ⟨_, rfl, hs.invKept_whenLive (hs.invKept_withLength fun _ _ =>
      hs.invKept_respond_clearMatch _ hs.sel_le rfl rfl rfl)⟩
  | chk =>
    exact ⟨_, rfl, hs.invKept_whenLive (hs.invKept_withLength fun _ hr => (hs.invKept_setMatched hr).respond _)⟩
  | ksetp d =>
    refine ⟨_, rfl, hs.invKept_whenKo fun k hk hki => ?_⟩
    split
    · exact hs.invKept_raise _
    · next hd => exact hs.invKept_respond_setKo _ hk (hki.setPwLen (Nat.le_of_not_lt hd))
  | ksets d =>
    refine ⟨_, rfl, hs.invKept_whenKo fun k hk hki => ?_⟩
    split
    · exact hs.invKept_raise _
    · next hd => exact hs.invKept_respond_setKo _ hk (hki.setSaltLen (Nat.le_of_not_lt hd))
  | kldp a d =>
    exact ⟨_, rfl, hs.invKept_whenKo fun _ hk hki => hs.invKept_withOperand fun b =>
      hs.invKept_withAddress fun _ hx => hs.invKept_respond_setKo _ hk (hki.writePw hx b)⟩
  | klds a d =>
    exact ⟨_, rfl, hs.invKept_whenKo fun _ hk hki => hs.invKept_withOperand fun b =>
      hs.invKept_withAddress fun _ hx => hs.invKept_respond_setKo _ hk (hki.writeSalt hx b)⟩
  | krun => exact ⟨_, rfl, hs.invKept_whenKo fun _ hk hki => hs.invKept_respond_setKo _ hk hki.setSeed_derived⟩
  | krds a =>
    refine ⟨_, rfl, hs.invKept_whenKo fun k _ _ => hs.invKept_withAddress fun x _ => ?_⟩
    split
    · exact read _
    · exact hs.invKept_raise _

/-- A command word is performed or illegal (R90). -/
theorem step_invKept : ∃ t, step s = .next t ∧ InvKept s t := by
  unfold step fetch
  cases hin : s.input with
  | nil => exact ⟨s, rfl, hs.invKept_self⟩
  | cons e rest =>
    have hrest := hs.invKept_setInput rest
    cases e with
    | reset => exact ⟨_, rfl, hrest.trans hrest.inv.invKept_clear⟩
    | command cw =>
      dsimp only
      cases decode cw with
      | command i =>
        obtain ⟨t, ht, hkept⟩ := exec_invKept hrest.inv i
        exact ⟨t, ht, hrest.trans hkept⟩
      | illegal _ => exact ⟨_, rfl, hrest.trans (hrest.inv.invKept_whenLive (hrest.inv.invKept_raise _))⟩

end

/-- Settles O43: each command's guards and writes keep the invariant one by one (`exec_invKept`), and so do the reset
input and taking the next event (`step_invKept`). -/
theorem everyStepKeepsTheInvariant : Obligations.EveryStepKeepsTheInvariant := by
  intro s t hs hst
  obtain ⟨t', ht', hinv, hko, hsizes⟩ := step_invKept hs
  cases hst.symm.trans ht'
  exact ⟨hinv, hko, hsizes⟩

/-- Settles O42: every field has its reset value, and the sizes are legal, the open ones by their type. -/
theorem resetSatisfiesTheInvariant : Obligations.ResetSatisfiesTheInvariant :=
  ⟨State.resetWith_inv params_wf, fun _ => State.resetWith_inv⟩

end Sys2Proof.Machine

/-! SUPPORT. What each command may do to the state, said once (Effect), and what follows of it for MATCH (R28) and
for the access table (R38). -/

namespace Sys2Proof.Machine

/-! ## What a command can do -/

/-- What the command `i` may do to `s` (R38): it only answers (a read, or a command a faulted block ignores), it faults,
or it writes, one constructor for each row of the access table that does. -/
inductive Effect (s : State) : Instr → State → Prop where
  | answer {i : Instr} (v : Word) : Effect s i (respond v s)
  | fault {i : Instr} (c : Cause) (live : s.err = 0#4) : Effect s i (raise c s)
  | clr : Effect s .clr (clearAndRespond s)
  | setlen {d : Field} (v : BitVec 3) : Effect s (.setlen d) (respond 0#32 (s.setSel v).clearMatch)
  | setwc {d : Field} (v : BitVec 3) : Effect s (.setwc d) (respond 0#32 (s.setSel v).clearMatch)
  | lde {a d : Field} (b : Byte) :
    Effect s (.lde a d) (respond 0#32 (s.setEnt (s.ent.setIfInBounds a.toNat b)).clearMatch)
  | ldh {d : Field} (b : Byte) : Effect s (.ldh d) (respond 0#32 (s.setHash0 b).clearMatch)
  | ldi {a d : Field} (x : Index) :
    Effect s (.ldi a d) (respond 0#32 (s.setIdx (s.idx.setIfInBounds a.toNat x)).clearMatch)
  | pack {r : LengthRow} (row : lengthRow s.sel = some r) (xs : List Index) (len : xs.length = r.words) :
    Effect s .pack (respond 0#32 (s.setIdx (storeFirst s.idx xs)).clearMatch)
  | unpack {r : LengthRow} (row : lengthRow s.sel = some r) (xs : List Byte) (len : xs.length = r.len) (c : Byte) :
    Effect s .unpack (respond 0#32 ((s.setEnt (storeFirst s.ent xs)).setCsx c).clearMatch)
  | chk (v : Word) (m : Bool) : Effect s .chk (respond v (s.setMatched m))
  | ksetp {d : Field} {k : KoState} (ko : s.ko = some k) :
    Effect s (.ksetp d) (respond 0#32 (s.setKo (k.setPwLen d).clearSeed))
  | ksets {d : Field} {k : KoState} (ko : s.ko = some k) :
    Effect s (.ksets d) (respond 0#32 (s.setKo (k.setSaltLen d).clearSeed))
  | kldp {a d : Field} {k : KoState} (ko : s.ko = some k) (b : Byte) :
    Effect s (.kldp a d) (respond 0#32 (s.setKo (k.setPw (k.pw.write a.toNat b)).clearSeed))
  | klds {a d : Field} {k : KoState} (ko : s.ko = some k) (b : Byte) :
    Effect s (.klds a d) (respond 0#32 (s.setKo (k.setSalt (k.salt.write a.toNat b)).clearSeed))
  | krun {k : KoState} (ko : s.ko = some k) :
    Effect s .krun (respond 0#32 (s.setKo (k.setSeed (derivedSeed k) true)))

section
variable {s : State} {i : Instr}

theorem Effect.of_whenLive {t : State} (ht : s.err = 0#4 → Effect s i t) : Effect s i (whenLive s t) := by
  obtain ⟨-, h⟩ | ⟨live, h⟩ := whenLive_cases s t <;> rw [h]
  · exact .answer _
  · exact ht live

theorem Effect.of_whenKo {f : KoState → State} (hf : s.err = 0#4 → ∀ k, s.ko = some k → Effect s i (f k)) :
    Effect s i (whenKo s f) := by
  obtain ⟨-, h⟩ | ⟨live, -, h⟩ | ⟨k, live, hk, h⟩ := whenKo_cases s f <;> rw [h]
  · exact .answer _
  · exact .fault _ live
  · exact hf live k hk

theorem Effect.of_withOperand {α : Type} {o : Option α} {f : α → State} (live : s.err = 0#4)
    (hf : ∀ v, Effect s i (f v)) : Effect s i (withOperand o s f) := by
  obtain h | ⟨v, -, h⟩ := withOperand_cases o s f <;> rw [h]
  · exact .fault _ live
  · exact hf v

theorem Effect.of_withAddress {a : Field} {n : Nat} {f : Nat → State} (live : s.err = 0#4)
    (hf : Effect s i (f a.toNat)) : Effect s i (withAddress a n s f) := by
  obtain h | ⟨-, h⟩ := withAddress_cases a n s f <;> rw [h]
  · exact .fault _ live
  · exact hf

theorem Effect.of_withLength {f : LengthRow → State} (live : s.err = 0#4)
    (hf : ∀ r, lengthRow s.sel = some r → Effect s i (f r)) : Effect s i (withLength s f) := by
  obtain h | ⟨r, hr, h⟩ := withLength_cases s f <;> rw [h]
  · exact .fault _ live
  · exact hf r hr

theorem Effect.of_selectRow {row : Option (BitVec 3)} {c : Cause} (live : s.err = 0#4)
    (hv : ∀ v, Effect s i (respond 0#32 (s.setSel v).clearMatch)) : Effect s i (selectRow row c s) := by
  obtain h | ⟨v, -, h⟩ := selectRow_cases row c s <;> rw [h]
  · exact .fault _ live
  · exact hv v

end

theorem exec_effect {i : Instr} {s t : State} (h : exec i s = .next t) : Effect s i t := by
  cases i <;> cases h
  case nop => exact .of_whenLive fun _ => .answer _
  case clr => exact .clr
  case rds => exact .answer _
  case setlen d => exact .of_whenLive fun live => .of_selectRow live .setlen
  case setwc d => exact .of_whenLive fun live => .of_selectRow live .setwc
  case lde a d => exact .of_whenLive fun live => .of_withOperand live fun b => .of_withAddress live (.lde b)
  case rde a => exact .of_whenLive fun live => .of_withAddress live (.answer _)
  case ldh d => exact .of_whenLive fun live => .of_withOperand live .ldh
  case ldi a d => exact .of_whenLive fun live => .of_withOperand live fun x => .of_withAddress live (.ldi x)
  case rdi a => exact .of_whenLive fun live => .of_withAddress live (.answer _)
  case rdc => exact .of_whenLive fun _ => .answer _
  case pack =>
    exact .of_whenLive fun live => .of_withLength live fun _ row => .pack row _ (pack_length ..)
  case unpack =>
    exact .of_whenLive fun live => .of_withLength live fun _ row => .unpack row _ (unpackEntropy_length ..) _
  case chk => exact .of_whenLive fun live => .of_withLength live fun _ _ => .chk _ _
  case ksetp d =>
    refine .of_whenKo fun live _ ko => ?_
    split
    · exact .fault _ live
    · exact .ksetp ko
  case ksets d =>
    refine .of_whenKo fun live _ ko => ?_
    split
    · exact .fault _ live
    · exact .ksets ko
  case kldp a d =>
    exact .of_whenKo fun live _ ko => .of_withOperand live fun b => .of_withAddress live (.kldp ko b)
  case klds a d =>
    exact .of_whenKo fun live _ ko => .of_withOperand live fun b => .of_withAddress live (.klds ko b)
  case krun => exact .of_whenKo fun _ _ ko => .krun ko
  case krds a =>
    refine .of_whenKo fun live _ _ => .of_withAddress live ?_
    split
    · exact .answer _
    · exact .fault _ live

section
variable {s t : State} {i : Instr} (h : Effect s i t)
include h

theorem Effect.sizes_eq : t.sizes = s.sizes := by cases h <;> rfl

theorem Effect.input_eq : t.input = s.input := by cases h <;> rfl

/-- A command returns one response (R181). -/
theorem Effect.output_eq : ∃ v, t.output = v :: s.output := by cases h <;> exact ⟨_, rfl⟩

/-- `MATCH` is set by `CHK` alone, and every other command that writes PU state clears it (R28). -/
theorem Effect.of_matched (hm : t.matched = true) :
    i = .chk ∨ (s.matched = true ∧ t.sel = s.sel ∧ t.ent = s.ent ∧ t.idx = s.idx ∧ t.hash0 = s.hash0 ∧
      t.csx = s.csx) := by
  cases h with
  | chk => exact .inl rfl
  | clr | setlen | setwc | lde | ldh | ldi | pack | unpack => cases hm
  | answer | fault | ksetp | ksets | kldp | klds | krun => exact .inr ⟨hm, rfl, rfl, rfl, rfl, rfl⟩

end

/-- Settles O44: no effect of a command but that of `CHK` leaves `MATCH` 1 and writes other PU state. -/
theorem matchOutlivesNoChange : Obligations.MatchOutlivesNoChange := fun _ _ _ hexec => (exec_effect hexec).of_matched

/-! ## The columns of the access table -/

/-- A write of one element leaves the others. -/
theorem setIfInBounds_getElem?_or {α : Type} {n : Nat} (buf : Vector α n) (x : Nat) (v : α) (j : Nat) :
    (buf.setIfInBounds x v)[j]? = buf[j]? ∨ x = j :=
  or_iff_not_imp_right.mpr Vector.getElem?_setIfInBounds_ne

/-- A stored sequence writes no element beyond its length. -/
theorem storeFirst_getElem?_or {α : Type} {n : Nat} (buf : Vector α n) (xs : List α) (j : Nat) :
    (storeFirst buf xs)[j]? = buf[j]? ∨ j < xs.length :=
  or_iff_not_imp_right.mpr fun h => storeFirst_getElem?_ge buf xs (Nat.le_of_not_lt h)

theorem Memory.read_write_or (m : Memory) (a : Nat) (b : Byte) (x : Nat) :
    (m.write a b).read x = m.read x ∨ a = x :=
  or_iff_not_imp_right.mpr fun h => Memory.read_write_other m b (Ne.symm h)

/-- The columns `PWLEN` to `KDONE` of the access table (R38): `i` turns the KO's fields `k` into `l` and writes only its
own. Each field is proved by default for a command that does not write it. -/
structure KoColumns (i : Instr) (k l : KoState) : Prop where
  pwLen : l.pwLen = k.pwLen ∨ ∃ d, i = .ksetp d := by exact .inl rfl
  saltLen : l.saltLen = k.saltLen ∨ ∃ d, i = .ksets d := by exact .inl rfl
  pw : ∀ x, l.pw.read x = k.pw.read x ∨ ∃ a d : Field, i = .kldp a d ∧ a.toNat = x :=
    by exact fun _ => .inl rfl
  salt : ∀ x, l.salt.read x = k.salt.read x ∨ ∃ a d : Field, i = .klds a d ∧ a.toNat = x :=
    by exact fun _ => .inl rfl
  seed : (l.seed = k.seed ∧ l.kdone = k.kdone) ∨ (i = .krun ∧ l.kdone = true) ∨
      (l.seed = Vector.replicate 64 0#8 ∧ l.kdone = false ∧
        ((∃ d, i = .ksetp d ∨ i = .ksets d) ∨ ∃ a d, i = .kldp a d ∨ i = .klds a d)) :=
    by exact .inl ⟨rfl, rfl⟩

/-- The columns of the access table (R38): `i` turns `s` into `t` and writes only its own. Each field is proved by
default for a command that does not write it. -/
structure Columns (i : Instr) (s t : State) : Prop where
  sel : t.sel = s.sel ∨ ∃ d, i = .setlen d ∨ i = .setwc d := by exact .inl rfl
  ent : ∀ j, t.ent[j]? = s.ent[j]? ∨ (∃ a d : Field, i = .lde a d ∧ a.toNat = j) ∨
      (i = .unpack ∧ ∃ r, lengthRow s.sel = some r ∧ j < r.len) := by exact fun _ => .inl rfl
  idx : ∀ j, t.idx[j]? = s.idx[j]? ∨ (∃ a d : Field, i = .ldi a d ∧ a.toNat = j) ∨
      (i = .pack ∧ ∃ r, lengthRow s.sel = some r ∧ j < r.words) := by exact fun _ => .inl rfl
  hash0 : t.hash0 = s.hash0 ∨ ∃ d, i = .ldh d := by exact .inl rfl
  csx : t.csx = s.csx ∨ i = .unpack := by exact .inl rfl
  matched : t.matched = s.matched ∨ i = .chk ∨
      (t.matched = false ∧ ((∃ d, i = .setlen d ∨ i = .setwc d ∨ i = .ldh d) ∨
        (∃ a d, i = .lde a d ∨ i = .ldi a d) ∨ i = .pack ∨ i = .unpack)) := by exact .inl rfl
  err : t.err = s.err ∨ s.err = 0#4 := by exact .inl rfl
  no_ko : s.ko = none → t.ko = none := by exact id
  ko : ∀ k, s.ko = some k → ∃ l, t.ko = some l ∧ KoColumns i k l := by exact fun k hk => ⟨k, hk, {}⟩

/-- A command of the KO writes no PU column. -/
theorem Columns.of_setKo {i : Instr} {s : State} {k l : KoState} (v : Word) (hk : s.ko = some k)
    (hl : KoColumns i k l) : Columns i s (respond v (s.setKo l)) where
  no_ko hnone := nomatch hnone.symm.trans hk
  ko k' hk' := ⟨l, rfl, Option.some.inj (hk.symm.trans hk') ▸ hl⟩

theorem Effect.columns {i : Instr} {s t : State} (h : Effect s i t) (hi : i ≠ .clr) : Columns i s t := by
  cases h with
  | clr => exact absurd rfl hi
  | answer v => exact {}
  | fault c live => exact { err := .inr live }
  | @setlen d v => exact {
      sel := .inr ⟨d, .inl rfl⟩
      matched := .inr (.inr ⟨rfl, .inl ⟨d, .inl rfl⟩⟩) }
  | @setwc d v => exact {
      sel := .inr ⟨d, .inr rfl⟩
      matched := .inr (.inr ⟨rfl, .inl ⟨d, .inr (.inl rfl)⟩⟩) }
  | @lde a d b => exact {
      ent := fun j => (setIfInBounds_getElem?_or s.ent a.toNat b j).imp_right fun hj => .inl ⟨a, d, rfl, hj⟩
      matched := .inr (.inr ⟨rfl, .inr (.inl ⟨a, d, .inl rfl⟩)⟩) }
  | @ldh d b => exact {
      hash0 := .inr ⟨d, rfl⟩
      matched := .inr (.inr ⟨rfl, .inl ⟨d, .inr (.inr rfl)⟩⟩) }
  | @ldi a d x => exact {
      idx := fun j => (setIfInBounds_getElem?_or s.idx a.toNat x j).imp_right fun hj => .inl ⟨a, d, rfl, hj⟩
      matched := .inr (.inr ⟨rfl, .inr (.inl ⟨a, d, .inr rfl⟩)⟩) }
  | @pack r row xs len => exact {
      idx := fun j => (storeFirst_getElem?_or s.idx xs j).imp_right fun hj => .inr ⟨rfl, r, row, len ▸ hj⟩
      matched := .inr (.inr ⟨rfl, .inr (.inr (.inl rfl))⟩) }
  | @unpack r row xs len c => exact {
      ent := fun j => (storeFirst_getElem?_or s.ent xs j).imp_right fun hj => .inr ⟨rfl, r, row, len ▸ hj⟩
      csx := .inr rfl
      matched := .inr (.inr ⟨rfl, .inr (.inr (.inr rfl))⟩) }
  | chk v m => exact { matched := .inr (.inl rfl) }
  | @ksetp d k hk => exact .of_setKo _ hk {
      pwLen := .inr ⟨d, rfl⟩
      seed := .inr (.inr ⟨rfl, rfl, .inl ⟨d, .inl rfl⟩⟩) }
  | @ksets d k hk => exact .of_setKo _ hk {
      saltLen := .inr ⟨d, rfl⟩
      seed := .inr (.inr ⟨rfl, rfl, .inl ⟨d, .inr rfl⟩⟩) }
  | @kldp a d k hk b => exact .of_setKo _ hk {
      pw := fun x => (k.pw.read_write_or a.toNat b x).imp_right fun hx => ⟨a, d, rfl, hx⟩
      seed := .inr (.inr ⟨rfl, rfl, .inr ⟨a, d, .inl rfl⟩⟩) }
  | @klds a d k hk b => exact .of_setKo _ hk {
      salt := fun x => (k.salt.read_write_or a.toNat b x).imp_right fun hx => ⟨a, d, rfl, hx⟩
      seed := .inr (.inr ⟨rfl, rfl, .inr ⟨a, d, .inr rfl⟩⟩) }
  | krun hk => exact .of_setKo _ hk { seed := .inr (.inl ⟨rfl, rfl⟩) }

/-- Settles O45: each effect of a command stays in the command's columns (`Effect.columns`). -/
theorem everyCommandWritesOnlyItsColumns : Obligations.EveryCommandWritesOnlyItsColumns := by
  intro i s t hexec hi
  have heffect := exec_effect hexec
  have hcol := heffect.columns hi
  refine ⟨hcol.sel, hcol.ent, hcol.idx, hcol.hash0, hcol.csx, hcol.matched, hcol.err, hcol.no_ko, fun k hk => ?_,
    heffect.sizes_eq, heffect.input_eq, heffect.output_eq⟩
  obtain ⟨l, hl, hkol⟩ := hcol.ko k hk
  exact ⟨l, hl, hkol.pwLen, hkol.saltLen, hkol.pw, hkol.salt, hkol.seed⟩

end Sys2Proof.Machine

/-! SUPPORT. Reset and `CLR` (R37), and the run of R24: a step does to the block what `perform` does, whatever the host
still presents and whatever was answered before, so the steps through the host's list are its run. -/

namespace Sys2Proof.Machine

/-! ## One step, by what the host presents -/

section
variable {s : State} {es : List PortEvent}

theorem step_of_idle (hin : s.input = []) : step s = .next s := by
  simp only [step, fetch, hin]

theorem step_of_reset (hin : s.input = .reset :: es) : step s = .next (s.setInput es).clear := by
  simp only [step, fetch, hin]

theorem step_of_command {cw : Word} {i : Instr} (hin : s.input = .command cw :: es) (hd : decode cw = .command i) :
    step s = exec i (s.setInput es) := by
  simp only [step, fetch, hin, hd]

theorem step_of_illegal {cw : Word} {why : IllegalWord} (hin : s.input = .command cw :: es)
    (hd : decode cw = .illegal why) : step s = .next (illegalWord (s.setInput es)) := by
  simp only [step, fetch, hin, hd]

end

/-! ## No command depends on the rest of the host's list or on earlier responses -/

/-- The same block, but the host presents `es` after this command and got the responses `ws` before all others. -/
def State.amid (s : State) (es : List PortEvent) (ws : List Word) : State :=
  { s with input := es, output := s.output ++ ws }

section
variable {s : State} {es : List PortEvent} {ws : List Word}

theorem ite_amid {p : Prop} [Decidable p] {t t' u u' : State} (hu : u = t.amid es ws) (hu' : u' = t'.amid es ws) :
    (if p then u else u') = (if p then t else t').amid es ws :=
  hu ▸ hu' ▸ (apply_ite (State.amid · es ws) p t t').symm

theorem whenLive_amid {t u : State} (hu : u = t.amid es ws) : whenLive (s.amid es ws) u = (whenLive s t).amid es ws :=
  ite_amid hu rfl

theorem whenKo_amid {f g : KoState → State} (hg : ∀ k, g k = (f k).amid es ws) :
    whenKo (s.amid es ws) g = (whenKo s f).amid es ws := by
  refine whenLive_amid ?_
  rw [show (s.amid es ws).ko = s.ko from rfl]
  cases s.ko with
  | none => rfl
  | some k => exact hg k

theorem withOperand_amid {α : Type} {o : Option α} {f g : α → State} (hg : ∀ v, g v = (f v).amid es ws) :
    withOperand o (s.amid es ws) g = (withOperand o s f).amid es ws := by
  cases o with
  | none => rfl
  | some v => exact hg v

theorem withAddress_amid {a : Field} {n : Nat} {f g : Nat → State} (hg : ∀ x, g x = (f x).amid es ws) :
    withAddress a n (s.amid es ws) g = (withAddress a n s f).amid es ws :=
  ite_amid (hg _) rfl

theorem withLength_amid {f g : LengthRow → State} (hg : ∀ r, g r = (f r).amid es ws) :
    withLength (s.amid es ws) g = (withLength s f).amid es ws := by
  unfold withLength
  rw [show (s.amid es ws).sel = s.sel from rfl]
  cases lengthRow s.sel with
  | none => rfl
  | some r => exact hg r

theorem selectRow_amid {row : Option (BitVec 3)} {c : Cause} :
    selectRow row c (s.amid es ws) = (selectRow row c s).amid es ws := by
  cases row <;> rfl

end

/-- A command does the same to the block and answers the same, whatever the host presents next and got before (R189). -/
theorem exec_amid {i : Instr} {s t : State} (h : exec i s = .next t) (es : List PortEvent) (ws : List Word) :
    exec i (s.amid es ws) = .next (t.amid es ws) := by
  cases i <;> cases h <;> refine congrArg Host.Outcome.next ?_
  case nop => exact whenLive_amid rfl
  case clr => rfl
  case rds => rfl
  case setlen d => exact whenLive_amid selectRow_amid
  case setwc d => exact whenLive_amid selectRow_amid
  case lde a d => exact whenLive_amid (withOperand_amid fun _ => withAddress_amid fun _ => rfl)
  case rde a => exact whenLive_amid (withAddress_amid fun _ => rfl)
  case ldh d => exact whenLive_amid (withOperand_amid fun _ => rfl)
  case ldi a d => exact whenLive_amid (withOperand_amid fun _ => withAddress_amid fun _ => rfl)
  case rdi a => exact whenLive_amid (withAddress_amid fun _ => rfl)
  case rdc => exact whenLive_amid rfl
  case pack => exact whenLive_amid (withLength_amid fun _ => rfl)
  case unpack => exact whenLive_amid (withLength_amid fun _ => rfl)
  case chk => exact whenLive_amid (withLength_amid fun _ => rfl)
  case ksetp d => exact whenKo_amid fun _ => ite_amid rfl rfl
  case ksets d => exact whenKo_amid fun _ => ite_amid rfl rfl
  case kldp a d => exact whenKo_amid fun _ => withOperand_amid fun _ => withAddress_amid fun _ => rfl
  case klds a d => exact whenKo_amid fun _ => withOperand_amid fun _ => withAddress_amid fun _ => rfl
  case krun => exact whenKo_amid fun _ => rfl
  case krds a => exact whenKo_amid fun _ => withAddress_amid fun _ => ite_amid rfl rfl

theorem illegalWord_amid (s : State) (es : List PortEvent) (ws : List Word) :
    illegalWord (s.amid es ws) = (illegalWord s).amid es ws :=
  whenLive_amid rfl

/-- A step takes one event, whatever stands behind it in the host's list. -/
theorem step_amid {s t : State} {e : PortEvent} (hin : s.input = [e]) (h : step s = .next t) (es : List PortEvent)
    (ws : List Word) : step (s.amid (e :: es) ws) = .next (t.amid es ws) := by
  cases e with
  | reset =>
    rw [step_of_reset hin] at h
    cases h
    exact step_of_reset rfl
  | command cw =>
    cases hd : decode cw with
    | command i =>
      rw [step_of_command hin hd] at h
      exact (step_of_command rfl hd).trans (exec_amid h es ws)
    | illegal why =>
      rw [step_of_illegal hin hd] at h
      cases h
      exact (step_of_illegal rfl hd).trans (congrArg _ (illegalWord_amid (s.setInput []) es ws))

/-! ## The run -/

/-- A command word has the effect of some command: an illegal word only answers or faults. -/
theorem step_command_effect {s : State} {cw : Word} {es : List PortEvent} (hin : s.input = .command cw :: es) :
    ∃ i t, step s = .next t ∧ Effect (s.setInput es) i t := by
  cases hd : decode cw with
  | command i =>
    obtain ⟨t, ht⟩ := exec_answers_next i (s.setInput es)
    exact ⟨i, t, (step_of_command hin hd).trans ht, exec_effect ht⟩
  | illegal why => exact ⟨.nop, _, step_of_illegal hin hd, .of_whenLive fun live => .fault _ live⟩

/-- One event alone before the block is taken, and answered at most once, so newest first is oldest first. -/
theorem step_alone (z : BufferSizes) (e : PortEvent) (b : BlockState) :
    ∃ c ws, step { toBlockState := b, sizes := z, input := [e], output := [] } =
      .next { toBlockState := c, sizes := z, input := [], output := ws } ∧ ws.reverse = ws := by
  cases e with
  | reset => exact ⟨_, [], rfl, rfl⟩
  | command cw =>
    obtain ⟨i, ⟨c, z', es, ws⟩, hstep, heffect⟩ :=
      step_command_effect (s := { toBlockState := b, sizes := z, input := [.command cw], output := [] }) rfl
    obtain ⟨v, hv⟩ := heffect.output_eq
    cases heffect.sizes_eq
    cases heffect.input_eq
    cases hv
    exact ⟨c, [v], hstep, rfl⟩

/-- As many steps as the host's list has events are the run of the list (R24). -/
theorem core_run_input (z : BufferSizes) (es : List PortEvent) (b : BlockState) (out : List Word) :
    Sys2Proof.core.run es.length { toBlockState := b, sizes := z, input := es, output := out } = .next
      { toBlockState := (run z es b).1, sizes := z, input := [], output := (run z es b).2.reverse ++ out } := by
  induction es generalizing b out with
  | nil => rfl
  | cons e es ih =>
    obtain ⟨c, ws, halone, hrev⟩ := step_alone z e b
    refine (core_run_next (step_amid rfl halone es out) es.length).trans ((ih c (ws ++ out)).trans ?_)
    rw [run_cons, perform_of_step halone, List.reverse_append, hrev, List.append_assoc]

/-- Settles O12: by induction on the host's list, each step being one `perform` (`core_run_input`). -/
theorem blockHoldsItsStateBetweenCommands : Obligations.BlockHoldsItsStateBetweenCommands :=
  ⟨fun _ => step_of_idle, run_nil, fun s =>
    ⟨_, core_run_input s.sizes s.input s.toBlockState s.output, rfl, rfl, rfl, rfl⟩⟩

/-! ## Reset and CLR -/

/-- Settles O13: `BlockState.reset` is zero in every field, and `CLR` is it in any state. -/
theorem everyFieldIsZeroAfterResetAndClr : Obligations.EveryFieldIsZeroAfterResetAndClr := by
  refine ⟨fun _ => rfl, rfl, fun s => ⟨_, rfl, s.clear_toBlockState⟩, fun p => ?_⟩
  obtain ⟨z, hasKo⟩ := p
  cases hasKo <;> simp [statusWord, State.resetWith, flagWord, BlockState.hasKo]

end Sys2Proof.Machine

/-! SUPPORT. The results of `PACK`, `UNPACK`, `CHK` and `KRUN` are functions of their named inputs (R39). -/

namespace Sys2Proof.Machine

/-! ## What the four commands do when nothing stops them -/

section
variable {s : State} (live : s.err = 0#4)
include live

theorem whenLive_withLength_of_row {r : LengthRow} (hrow : lengthRow s.sel = some r) (f : LengthRow → State) :
    whenLive s (withLength s f) = f r := by
  rw [whenLive_of_live live, withLength, hrow]

theorem exec_pack_of_row {r : LengthRow} (hrow : lengthRow s.sel = some r) : exec .pack s = .next
    (respond 0#32 (s.setIdx (storeFirst s.idx (pack r (s.ent.toList.take r.len) s.hash0))).clearMatch) :=
  congrArg _ (whenLive_withLength_of_row live hrow _)

theorem exec_unpack_of_row {r : LengthRow} (hrow : lengthRow s.sel = some r) : exec .unpack s = .next
    (respond 0#32 ((s.setEnt (storeFirst s.ent (unpackEntropy r (s.idx.toList.take r.words)))).setCsx
      (unpackChecksum r (s.idx.toList.take r.words))).clearMatch) :=
  congrArg _ (whenLive_withLength_of_row live hrow _)

theorem exec_chk_of_row {r : LengthRow} (hrow : lengthRow s.sel = some r) : exec .chk s = .next
    (respond (flagWord (checksumMatches r s)) (s.setMatched (checksumMatches r s))) :=
  congrArg _ (whenLive_withLength_of_row live hrow _)

theorem exec_krun_of_ko {k : KoState} (hk : s.ko = some k) : exec .krun s = .next
    (respond 0#32 (s.setKo (k.setSeed (derivedSeed k) true))) :=
  congrArg _ (whenKo_of_live live hk _)

end

/-! ## The functions and their arguments -/

/-- Buffers that agree element by element on their first `m` elements agree on them as a sequence. -/
theorem take_toList_congr {α : Type} {n m : Nat} {u v : Vector α n} (h : ∀ j < m, u[j]? = v[j]?) :
    u.toList.take m = v.toList.take m := by
  apply List.ext_getElem?
  intro j
  by_cases hj : j < m
  · simpa [List.getElem?_take, hj] using h j hj
  · simp [hj]

/-- Bit `k` of a hash byte is one of its checksum bits when it is among the first `cs` (R142). -/
theorem getLsbD_of_hashBits (cs : Nat) (h : Byte) {k : Nat} (hk : k < cs) (hcs : cs ≤ 8) :
    h.getLsbD (7 - k) = (hashBits cs h).getLsbD (cs - 1 - k) := by
  rw [hashBits, BitVec.getLsbD_ushiftRight]
  congr 1
  omega

/-- `pack` reads the hash byte's checksum bits alone: a row's stream has no padding (R110). -/
theorem pack_congr_hashBits {r : LengthRow} (hr : r ∈ lengthTable) (E : List Byte) {h h' : Byte}
    (hh : hashBits r.cs h = hashBits r.cs h') : pack r E h = pack r E h' := by
  obtain ⟨-, -, -, hcs, hbits⟩ := lengthTable_bounds hr
  refine List.map_congr_left fun j hmem => bitField_congr fun t ht => ?_
  have hj : j < r.words := List.mem_range.mp hmem
  unfold packStream
  split
  · rfl
  · rw [getLsbD_of_hashBits r.cs h (by omega) hcs, getLsbD_of_hashBits r.cs h' (by omega) hcs, hh]

theorem derivedSeed_congr {k k' : KoState} (hpwLen : k'.pwLen = k.pwLen) (hsaltLen : k'.saltLen = k.saltLen)
    (hpw : ∀ x < k.pwLen.toNat, k.pw.read x = k'.pw.read x)
    (hsalt : ∀ x < k.saltLen.toNat, k.salt.read x = k'.salt.read x) : derivedSeed k = derivedSeed k' := by
  rw [derivedSeed, derivedSeed, hpwLen, hsaltLen, Memory.bytes_congr hpw, Memory.bytes_congr hsalt]

/-- What a stored sequence covers does not depend on what was there before. -/
theorem storeFirst_getElem?_congr {α : Type} {n : Nat} (u v : Vector α n) (xs : List α) {j : Nat} (hj : j < xs.length)
    (hn : xs.length ≤ n) : (storeFirst u xs)[j]? = (storeFirst v xs)[j]? :=
  (storeFirst_getElem?_lt u xs hj hn).trans (storeFirst_getElem?_lt v xs hj hn).symm

/-! ## The results -/

section
variable {s s' : State} (live : s.err = 0#4) (live' : s'.err = 0#4)
include live live'

section
variable {r : LengthRow} (hrow : lengthRow s.sel = some r) (hsel : s'.sel = s.sel)
include hrow hsel

theorem pack_depends_on (hent : ∀ j < r.len, s.ent[j]? = s'.ent[j]?)
    (hhash : hashBits r.cs s.hash0 = hashBits r.cs s'.hash0) :
    ∃ t t', exec .pack s = .next t ∧ exec .pack s' = .next t' ∧ ∀ j < r.words, t.idx[j]? = t'.idx[j]? := by
  have hr := lengthRow_mem hrow
  obtain ⟨-, hwords, -⟩ := lengthTable_bounds hr
  have hpack : pack r (s.ent.toList.take r.len) s.hash0 = pack r (s'.ent.toList.take r.len) s'.hash0 := by
    rw [take_toList_congr hent, pack_congr_hashBits hr _ hhash]
  refine ⟨_, _, exec_pack_of_row live hrow, exec_pack_of_row live' (hsel ▸ hrow), fun j hj => ?_⟩
  rw [← hpack]
  exact storeFirst_getElem?_congr s.idx s'.idx _ (by rwa [pack_length]) (by rwa [pack_length])

theorem unpack_depends_on (hidx : ∀ j < r.words, s.idx[j]? = s'.idx[j]?) :
    ∃ t t', exec .unpack s = .next t ∧ exec .unpack s' = .next t' ∧ t.csx = t'.csx ∧
      ∀ j < r.len, t.ent[j]? = t'.ent[j]? := by
  obtain ⟨hlen, -⟩ := lengthTable_bounds (lengthRow_mem hrow)
  refine ⟨_, _, exec_unpack_of_row live hrow, exec_unpack_of_row live' (hsel ▸ hrow), ?_⟩
  rw [← take_toList_congr hidx]
  exact ⟨rfl, fun j hj =>
    storeFirst_getElem?_congr s.ent s'.ent _ (by rwa [unpackEntropy_length]) (by rwa [unpackEntropy_length])⟩

theorem chk_depends_on (hcsx : s'.csx = s.csx) (hhash : s'.hash0 = s.hash0) :
    ∃ t t', exec .chk s = .next t ∧ exec .chk s' = .next t' ∧ t.matched = t'.matched := by
  refine ⟨_, _, exec_chk_of_row live hrow, exec_chk_of_row live' (hsel ▸ hrow), ?_⟩
  simp [checksumMatches, hcsx, hhash]

end

end

/-- Settles O48: each command's result is a function of the named inputs, which the two blocks share. -/
theorem resultsDependOnlyOnNamedInputs : Obligations.ResultsDependOnlyOnNamedInputs := by
  intro s s' live live'
  refine ⟨fun r hrow hsel => pack_depends_on live live' hrow hsel,
    fun r hrow hsel => unpack_depends_on live live' hrow hsel,
    fun r hrow hsel => chk_depends_on live live' hrow hsel,
    fun k k' hk hk' hpwLen hsaltLen hpw hsalt => ?_⟩
  exact ⟨_, _, _, _, exec_krun_of_ko live hk, exec_krun_of_ko live' hk', rfl, rfl,
    derivedSeed_congr hpwLen hsaltLen hpw hsalt⟩

end Sys2Proof.Machine

/-! SUPPORT. A read only answers, and answers the same again (R67); no command but `KRUN` answers or writes anything that
depends on what `PW` and `SALT` hold (R60, R210). -/

namespace Sys2Proof.Machine

/-! ## Reads -/

theorem causeCode_ne_zero (c : Cause) : causeCode c ≠ 0#4 := by cases c <;> decide

/-- A read has no column in the access table (R67), so what it can do without a fault is answer. -/
theorem Effect.of_isRead {s t : State} {i : Instr} (h : Effect s i t) (hi : i.isRead = true) (live : t.err = 0#4) :
    ∃ v, t = respond v s := by
  cases h with
  | answer v => exact ⟨v, rfl⟩
  | fault c => exact absurd live (causeCode_ne_zero c)
  | clr | setlen | setwc | lde | ldh | ldi | pack | unpack | chk | ksetp | ksets | kldp | klds | krun => cases hi

/-- Settles O46: a read that does not fault only answers (`Effect.of_isRead`); run with no earlier responses it gives the
response `v`, and `exec_amid` puts that run after the responses of `s`, and after those and `v`. -/
theorem readsChangeNoStateAndRepeat : Obligations.ReadsChangeNoStateAndRepeat := by
  intro i s t hi _ hexec live
  obtain ⟨t₀, ht₀⟩ := exec_answers_next i { s with output := [] }
  cases hexec.symm.trans (exec_amid ht₀ s.input s.output)
  obtain ⟨v, rfl⟩ := (exec_effect ht₀).of_isRead hi live
  exact ⟨v, rfl, exec_amid ht₀ s.input (v :: s.output)⟩

/-! ## States that differ in `PW` and `SALT` alone -/

/-- The same KO, but `PW` and `SALT` hold `p` and `q`. -/
def KoState.withSecrets (k : KoState) (p q : Memory) : KoState := { k with pw := p, salt := q }

/-- The same block, but `PW` and `SALT`, where it has them, hold `p` and `q`. -/
def State.withSecrets (s : State) (p q : Memory) : State := { s with ko := s.ko.map (·.withSecrets p q) }

/-- `u` is `t` but for what `PW` and `SALT` hold. -/
def SameButSecrets (t u : State) : Prop := ∃ p q, u = t.withSecrets p q

/-- The case of a command that does not write `PW` and `SALT`: the other contents stay in them. Responses, faults and
writes to other fields commute with `State.withSecrets` by unfolding. -/
theorem SameButSecrets.kept {t : State} {p q : Memory} : SameButSecrets t (t.withSecrets p q) := ⟨p, q, rfl⟩

theorem SameButSecrets.ite {c : Prop} [Decidable c] {t t' u u' : State} (h : SameButSecrets t u)
    (h' : SameButSecrets t' u') : SameButSecrets (if c then t else t') (if c then u else u') := by
  split
  · exact h
  · exact h'

section
variable (s : State) (p q : Memory)

theorem State.hasKo_withSecrets : (s.withSecrets p q).hasKo = s.hasKo := Option.isSome_map

theorem statusWord_withSecrets : statusWord (s.withSecrets p q) = statusWord s := by
  have hkdone : (s.withSecrets p q).ko.any (·.kdone) = s.ko.any (·.kdone) := Option.any_map
  rw [statusWord, hkdone, s.hasKo_withSecrets]
  rfl

theorem State.clear_withSecrets : (s.withSecrets p q).clear = s.clear := by
  rw [State.clear, s.hasKo_withSecrets]
  rfl

/-- After `CLR` the buffers are empty lists, every byte 0x00 (R37). -/
theorem State.withSecrets_nil_clear : s.clear.withSecrets [] [] = s.clear := by
  unfold State.clear
  cases s.hasKo <;> rfl

/-- `CLR` puts `PW` and `SALT` to their reset value (R37), whatever they held. -/
theorem sameButSecrets_clearAndRespond :
    SameButSecrets (clearAndRespond s) (clearAndRespond (s.withSecrets p q)) :=
  ⟨[], [], congrArg (respond 0#32) ((s.clear_withSecrets p q).trans s.withSecrets_nil_clear.symm)⟩

end

/-! ## The guards do not depend on `PW` and `SALT` -/

section
variable {s : State} {p q : Memory}

theorem sameButSecrets_whenLive {t u : State} (h : SameButSecrets t u) :
    SameButSecrets (whenLive s t) (whenLive (s.withSecrets p q) u) :=
  .ite h .kept

theorem sameButSecrets_whenKo {f g : KoState → State} (h : ∀ k, SameButSecrets (f k) (g (k.withSecrets p q))) :
    SameButSecrets (whenKo s f) (whenKo (s.withSecrets p q) g) := by
  refine sameButSecrets_whenLive ?_
  rw [show (s.withSecrets p q).ko = s.ko.map (·.withSecrets p q) from rfl]
  cases s.ko with
  | none => exact .kept
  | some k => exact h k

theorem sameButSecrets_withOperand {α : Type} {o : Option α} {f g : α → State}
    (h : ∀ v, SameButSecrets (f v) (g v)) :
    SameButSecrets (withOperand o s f) (withOperand o (s.withSecrets p q) g) := by
  cases o with
  | none => exact .kept
  | some v => exact h v

theorem sameButSecrets_withAddress {a : Field} {n : Nat} {f g : Nat → State}
    (h : ∀ x, SameButSecrets (f x) (g x)) :
    SameButSecrets (withAddress a n s f) (withAddress a n (s.withSecrets p q) g) :=
  .ite (h _) .kept

theorem sameButSecrets_withLength {f g : LengthRow → State} (h : ∀ r, SameButSecrets (f r) (g r)) :
    SameButSecrets (withLength s f) (withLength (s.withSecrets p q) g) := by
  unfold withLength
  rw [show (s.withSecrets p q).sel = s.sel from rfl]
  cases lengthRow s.sel with
  | none => exact .kept
  | some r => exact h r

theorem sameButSecrets_selectRow {row : Option (BitVec 3)} {c : Cause} :
    SameButSecrets (selectRow row c s) (selectRow row c (s.withSecrets p q)) := by
  cases row with
  | none => exact .kept
  | some v => exact .kept

end

/-! ## The commands -/

/-- `KLDP` and `KLDS` write the other contents as they write these; every other command but `CLR` leaves `PW` and `SALT`
as they are, and none but `KRUN` reads them. -/
theorem exec_sameButSecrets {i : Instr} {s t : State} (hi : i ≠ .krun) (h : exec i s = .next t) (p q : Memory) :
    ∃ u, exec i (s.withSecrets p q) = .next u ∧ SameButSecrets t u := by
  cases i <;> cases h <;> refine ⟨_, rfl, ?_⟩
  case nop => exact sameButSecrets_whenLive .kept
  case clr => exact sameButSecrets_clearAndRespond s p q
  case rds =>
    rw [statusWord_withSecrets]
    exact .kept
  case setlen d => exact sameButSecrets_whenLive sameButSecrets_selectRow
  case setwc d => exact sameButSecrets_whenLive sameButSecrets_selectRow
  case lde a d =>
    exact sameButSecrets_whenLive (sameButSecrets_withOperand fun _ => sameButSecrets_withAddress fun _ => .kept)
  case rde a => exact sameButSecrets_whenLive (sameButSecrets_withAddress fun _ => .kept)
  case ldh d => exact sameButSecrets_whenLive (sameButSecrets_withOperand fun _ => .kept)
  case ldi a d =>
    exact sameButSecrets_whenLive (sameButSecrets_withOperand fun _ => sameButSecrets_withAddress fun _ => .kept)
  case rdi a => exact sameButSecrets_whenLive (sameButSecrets_withAddress fun _ => .kept)
  case rdc => exact sameButSecrets_whenLive .kept
  case pack => exact sameButSecrets_whenLive (sameButSecrets_withLength fun _ => .kept)
  case unpack => exact sameButSecrets_whenLive (sameButSecrets_withLength fun _ => .kept)
  case chk => exact sameButSecrets_whenLive (sameButSecrets_withLength fun _ => .kept)
  case ksetp d => exact sameButSecrets_whenKo fun _ => .ite .kept .kept
  case ksets d => exact sameButSecrets_whenKo fun _ => .ite .kept .kept
  case kldp a d =>
    exact sameButSecrets_whenKo fun _ => sameButSecrets_withOperand fun b => sameButSecrets_withAddress fun x =>
      ⟨p.write x b, q, rfl⟩
  case klds a d =>
    exact sameButSecrets_whenKo fun _ => sameButSecrets_withOperand fun b => sameButSecrets_withAddress fun x =>
      ⟨p, q.write x b, rfl⟩
  case krun => exact absurd rfl hi
  case krds a => exact sameButSecrets_whenKo fun _ => sameButSecrets_withAddress fun _ => .ite .kept .kept

/-- Settles O49: neither the guards nor the writes nor the responses of a command other than `KRUN` depend on `PW` and
`SALT` (`exec_sameButSecrets`). -/
theorem passwordAndSaltCannotBeReadBack : Obligations.PasswordAndSaltCannotBeReadBack := by
  intro i s t p q hi hexec
  obtain ⟨_, hu, p', q', rfl⟩ := exec_sameButSecrets hi hexec p q
  exact ⟨p', q', hu⟩

end Sys2Proof.Machine

/-! SUPPORT. Decoding and encoding (30_encoding.md R80 to R90): a word decodes to a command exactly when it is the
encoding of that command, well-formed; what follows for the rows' masks and matches (R84) and for the illegal words (R83,
R85, R86). -/

namespace Sys2Proof

/-! ## A word and its fields -/

theorem commandWord_eq_iff {op : BitVec 8} {a d : Field} {cw : Word} :
    commandWord op a d = cw ↔ op = opField cw ∧ a = aField cw ∧ d = dField cw := by
  constructor
  · rintro rfl
    simp
  · rintro ⟨rfl, rfl, rfl⟩
    exact commandWord_fields cw

@[simp] theorem opField_and (v w : Word) : opField (v &&& w) = opField v &&& opField w := BitVec.extractLsb'_and

@[simp] theorem aField_and (v w : Word) : aField (v &&& w) = aField v &&& aField w := BitVec.extractLsb'_and

@[simp] theorem dField_and (v w : Word) : dField (v &&& w) = dField v &&& dField w := BitVec.extractLsb'_and

theorem extractLsb'_dField (cw : Word) {k n : Nat} (h : k + n ≤ 12) :
    (dField cw).extractLsb' k n = cw.extractLsb' k n := by
  rw [dField, BitVec.extractLsb'_extractLsb'_of_le h]

theorem isByte_iff {d : Field} : d.isByte = true ↔ d.extractLsb' 8 4 = 0#4 := beq_iff_eq

theorem isIndex_iff {d : Field} : d.isIndex = true ↔ d.extractLsb' 11 1 = 0#1 := beq_iff_eq

/-! ## What each format decodes to -/

section
variable {cw : Word} {j : Instr}

@[simp] theorem decodeZ_eq_command {i : Instr} :
    decodeZ cw i = .command j ↔ aField cw = 0#12 ∧ dField cw = 0#12 ∧ i = j := by
  unfold decodeZ
  split_ifs <;> simp_all

@[simp] theorem decodeD_eq_command {mk : Field → Instr} :
    decodeD cw mk = .command j ↔ aField cw = 0#12 ∧ mk (dField cw) = j := by
  unfold decodeD
  split_ifs <;> simp_all

@[simp] theorem decodeDByte_eq_command {mk : Field → Instr} :
    decodeDByte cw mk = .command j ↔ aField cw = 0#12 ∧ (dField cw).isByte = true ∧ mk (dField cw) = j := by
  unfold decodeDByte
  split_ifs <;> simp_all

@[simp] theorem decodeA_eq_command {mk : Field → Instr} :
    decodeA cw mk = .command j ↔ dField cw = 0#12 ∧ mk (aField cw) = j := by
  unfold decodeA
  split_ifs <;> simp_all

@[simp] theorem decodeADByte_eq_command {mk : Field → Field → Instr} :
    decodeADByte cw mk = .command j ↔ (dField cw).isByte = true ∧ mk (aField cw) (dField cw) = j := by
  unfold decodeADByte
  split_ifs <;> simp_all

@[simp] theorem decodeADIndex_eq_command {mk : Field → Field → Instr} :
    decodeADIndex cw mk = .command j ↔ (dField cw).isIndex = true ∧ mk (aField cw) (dField cw) = j := by
  unfold decodeADIndex
  split_ifs <;> simp_all

end

/-! ## Decoding and encoding are inverse -/

theorem decode_encode {i : Instr} (hi : i.WellFormed) : decode (encode i) = .command i := by
  cases i <;> simp_all [Instr.WellFormed, Instr.wellFormed, encode, decode]

/-- The word of a command has the opcode of the command's row and the fields its format asks for, so it is the command's
encoding. -/
theorem wellFormed_and_encode_of_decode {cw : Word} {i : Instr} (h : decode cw = .command i) :
    i.WellFormed ∧ encode i = cw := by
  have opField_eq {n : Nat} (hop : (opField cw).toNat = n) : BitVec.ofNat 8 n = opField cw := by simp [← hop]
  unfold decode at h
  split at h
  case h_21 => cases h
  all_goals
    next hop =>
    have hopcode := opField_eq hop
    simp only [decodeZ_eq_command, decodeD_eq_command, decodeDByte_eq_command, decodeA_eq_command,
      decodeADByte_eq_command, decodeADIndex_eq_command] at h
    grind [encode, commandWord_eq_iff, Instr.wellFormed]

theorem decode_eq_command_iff {cw : Word} {i : Instr} : decode cw = .command i ↔ i.WellFormed ∧ encode i = cw :=
  ⟨wellFormed_and_encode_of_decode, fun ⟨hi, hcw⟩ => hcw ▸ decode_encode hi⟩

/-! ## Masks and matches -/

/-- A mask with `n` ones from bit `k` up tests the field of these bits. -/
theorem and_ones_eq_zero_iff {w : Nat} (x : BitVec w) (k n : Nat) (hkn : k + n ≤ w) :
    x &&& (BitVec.allOnes n).setWidth w <<< k = 0#w ↔ x.extractLsb' k n = 0#n := by
  simp only [BitVec.eq_of_getLsbD_eq_iff, BitVec.getLsbD_and, BitVec.getLsbD_shiftLeft, BitVec.getLsbD_setWidth,
    BitVec.getLsbD_allOnes, BitVec.getLsbD_extractLsb', BitVec.getLsbD_zero]
  constructor <;> intro h i hi
  · simpa [hi, show k + i < w by omega, show i < w by omega] using h (k + i) (by omega)
  · by_cases hki : k ≤ i ∧ i - k < n
    · have hbit := h (i - k) hki.2
      rw [Nat.add_sub_cancel' hki.1] at hbit
      simp_all
    · grind

/-- A row's mask covers the opcode and the must-be-zero bits of `a` and `d`, and its match has the opcode and no other
bit: together they say that the word is the encoding of the row's command. -/
theorem and_eq_iff_decode {cw : Word} {i : Instr} {op : BitVec 8} {a d ma md : Field}
    (henc : encode i = commandWord op a d) (ha : aField cw &&& ma = 0#12 ↔ a = aField cw)
    (hd : dField cw &&& md = 0#12 ↔ i.WellFormed ∧ d = dField cw) :
    cw &&& commandWord 0xFF#8 ma md = commandWord op 0#12 0#12 ↔ decode cw = .command i := by
  have hop : opField cw &&& 0xFF#8 = opField cw := BitVec.and_allOnes
  rw [decode_eq_command_iff, henc, eq_comm, commandWord_eq_iff, commandWord_eq_iff]
  simp only [opField_and, aField_and, dField_and, opField_commandWord, aField_commandWord, dField_commandWord, hop,
    eq_comm (a := 0#12), ha, hd]
  tauto

/-- Settles O4: a row's mask and match test the opcode and the must-be-zero bits, field by field
(`and_eq_iff_decode`). -/
theorem maskAndMatchDecideEveryCommand : Obligations.MaskAndMatchDecideEveryCommand := by
  intro cw
  have absent (x : Field) : x &&& 0xFFF#12 = 0#12 ↔ 0#12 = x :=
    (congrArg (· = 0#12) BitVec.and_allOnes).to_iff.trans eq_comm
  have a0 := absent (aField cw)
  have a : aField cw &&& 0x000#12 = 0#12 ↔ aField cw = aField cw := by simp
  have d0 : dField cw &&& 0xFFF#12 = 0#12 ↔ true = true ∧ 0#12 = dField cw := by simpa using absent (dField cw)
  have length : dField cw &&& 0x000#12 = 0#12 ↔ true = true ∧ dField cw = dField cw := by simp
  have byte : dField cw &&& 0xF00#12 = 0#12 ↔ (dField cw).isByte = true ∧ dField cw = dField cw := by
    simpa using (and_ones_eq_zero_iff (dField cw) 8 4 (by decide)).trans isByte_iff.symm
  have index : dField cw &&& 0x800#12 = 0#12 ↔ (dField cw).isIndex = true ∧ dField cw = dField cw := by
    simpa using (and_ones_eq_zero_iff (dField cw) 11 1 (by decide)).trans isIndex_iff.symm
  exact ⟨and_eq_iff_decode (i := .nop) rfl a0 d0,
    and_eq_iff_decode (i := .clr) rfl a0 d0,
    and_eq_iff_decode (i := .rds) rfl a0 d0,
    and_eq_iff_decode (i := .setlen _) rfl a0 length,
    and_eq_iff_decode (i := .setwc _) rfl a0 length,
    and_eq_iff_decode (i := .lde _ _) rfl a byte,
    and_eq_iff_decode (i := .rde _) rfl a d0,
    and_eq_iff_decode (i := .ldh _) rfl a0 byte,
    and_eq_iff_decode (i := .ldi _ _) rfl a index,
    and_eq_iff_decode (i := .rdi _) rfl a d0,
    and_eq_iff_decode (i := .rdc) rfl a0 d0,
    and_eq_iff_decode (i := .pack) rfl a0 d0,
    and_eq_iff_decode (i := .unpack) rfl a0 d0,
    and_eq_iff_decode (i := .chk) rfl a0 d0,
    and_eq_iff_decode (i := .ksetp _) rfl a0 length,
    and_eq_iff_decode (i := .ksets _) rfl a0 length,
    and_eq_iff_decode (i := .kldp _ _) rfl a byte,
    and_eq_iff_decode (i := .klds _ _) rfl a byte,
    and_eq_iff_decode (i := .krun) rfl a0 d0,
    and_eq_iff_decode (i := .krds _) rfl a d0⟩

end Sys2Proof

namespace Sys2Proof.Machine

open Sys2Proof.Laws.Encoding (opcode)

/-! ## The opcode and the must-be-zero bits of an encoding -/

theorem opField_encode (i : Instr) : opField (encode i) = opcode i := by
  cases i <;> exact opField_commandWord _ _ _

theorem opcode_not_reserved (i : Instr) :
    (opcode i).toNat ≤ 0x02 ∨ (0x10 ≤ (opcode i).toNat ∧ (opcode i).toNat ≤ 0x1A) ∨
      (0x20 ≤ (opcode i).toNat ∧ (opcode i).toNat ≤ 0x25) := by
  cases i <;> simp [opcode]

theorem isKo_of_opcode_ge {i : Instr} (h : 0x20 ≤ (opcode i).toNat) : i.isKo = true := by
  cases i <;> simp_all [opcode, Instr.isKo]

/-- Formats Z and D have no address (R81). -/
theorem aField_encode_eq_zero {i : Instr} (h : opcode i ∈ [0x00#8, 0x01#8, 0x02#8, 0x17#8, 0x18#8, 0x19#8, 0x1A#8,
    0x24#8, 0x10#8, 0x11#8, 0x14#8, 0x20#8, 0x21#8]) : aField (encode i) = 0#12 := by
  cases i <;> simp_all [opcode, encode]

/-- Formats Z and A have no data (R81). -/
theorem dField_encode_eq_zero {i : Instr} (h : opcode i ∈ [0x00#8, 0x01#8, 0x02#8, 0x17#8, 0x18#8, 0x19#8, 0x1A#8,
    0x24#8, 0x13#8, 0x16#8, 0x25#8]) : dField (encode i) = 0#12 := by
  cases i <;> simp_all [opcode, encode]

theorem isByte_dField_encode {i : Instr} (hi : i.WellFormed) (h : opcode i ∈ [0x12#8, 0x14#8, 0x22#8, 0x23#8]) :
    (dField (encode i)).isByte = true := by
  cases i <;> simp_all [opcode, encode, Instr.WellFormed, Instr.wellFormed]

theorem isIndex_dField_encode {i : Instr} (hi : i.WellFormed) (h : opcode i = 0x15#8) :
    (dField (encode i)).isIndex = true := by
  cases i <;> simp_all [opcode, encode, Instr.WellFormed, Instr.wellFormed]

/-! ## Illegal words -/

section
variable {s : State} {cw : Word} (live : s.err = 0#4)
include live

theorem raisesIllegal_of_decode {why : IllegalWord} (hd : decode cw = .illegal why) : RaisesIllegal s cw :=
  (step_of_illegal rfl hd).trans (congrArg _ (whenLive_of_live live _))

/-- A word that is the encoding of no well-formed command is no command (R90). -/
theorem raisesIllegal_of_not_encode (h : ∀ i : Instr, i.WellFormed → encode i ≠ cw) : RaisesIllegal s cw := by
  cases hd : decode cw with
  | command i =>
    obtain ⟨hi, hcw⟩ := wellFormed_and_encode_of_decode hd
    exact absurd hcw (h i hi)
  | illegal why => exact raisesIllegal_of_decode live hd

theorem exec_of_isKo_of_absent {i : Instr} (hi : i.isKo = true) (hk : s.ko = none) :
    exec i s = .next (raise .illegalCommand s) := by
  cases i with
  | ksetp | ksets | kldp | klds | krun | krds => exact congrArg _ (whenKo_of_absent live hk _)
  | nop | clr | rds | setlen | setwc | lde | rde | ldh | ldi | rdi | rdc | pack | unpack | chk => cases hi

end

/-- Settles O6: no command is encoded with a reserved opcode. -/
theorem reservedOpcodeIsIllegal : Obligations.ReservedOpcodeIsIllegal := by
  intro s cw live hop
  refine raisesIllegal_of_not_encode live ?_
  rintro i - rfl
  have hi := opcode_not_reserved i
  rw [← opField_encode, opField] at hi
  omega

/-- Settles O7: no well-formed command is encoded with a must-be-zero bit set. -/
theorem mustBeZeroBitsAreIllegal : Obligations.MustBeZeroBitsAreIllegal := by
  intro s cw live hbits
  refine raisesIllegal_of_not_encode live ?_
  rintro i hi rfl
  rw [← opField, ← aField, ← dField, opField_encode, ← extractLsb'_dField _ (by decide : 8 + 4 ≤ 12),
    ← extractLsb'_dField _ (by decide : 11 + 1 ≤ 12)] at hbits
  obtain ⟨hop, ha⟩ | ⟨hop, hd⟩ | ⟨hop, hd⟩ | ⟨hop, hd⟩ := hbits
  · exact ha (aField_encode_eq_zero hop)
  · exact hd (dField_encode_eq_zero hop)
  · exact hd (isByte_iff.mp (isByte_dField_encode hi hop))
  · exact hd (isIndex_iff.mp (isIndex_dField_encode hi hop))

/-- Settles O8: the word is illegal, or a command of the KO, which a block without the KO takes as one. -/
theorem koOpcodesAreIllegalWithoutKo : Obligations.KoOpcodesAreIllegalWithoutKo := by
  intro s cw live hko hop _
  cases hd : decode cw with
  | command i =>
    obtain ⟨-, rfl⟩ := wellFormed_and_encode_of_decode hd
    have hi : i.isKo = true := isKo_of_opcode_ge (opField_encode i ▸ hop)
    exact (step_of_command rfl hd).trans (exec_of_isKo_of_absent live hi hko)
  | illegal why => exact raisesIllegal_of_decode live hd

end Sys2Proof.Machine

/-! SUPPORT. The assembler (30_encoding.md R88, R89) emits only words that decode to well-formed commands. -/

namespace Sys2Proof.Machine

/-- What a checked map of a list answers comes from elements of the list. -/
theorem exists_of_mem_mapM {α β : Type} {f : α → Option β} {xs : List α} {ys : List β} (h : xs.mapM f = some ys) :
    ∀ y ∈ ys, ∃ x ∈ xs, f x = some y := by
  induction xs generalizing ys with
  | nil =>
    cases h
    simp
  | cons x xs ih =>
    simp only [List.mapM_cons, Option.bind_eq_bind, Option.bind_eq_some_iff] at h
    obtain ⟨z, hz, zs, hzs, hys⟩ := h
    cases hys
    simp only [List.mem_cons, forall_eq_or_imp, exists_eq_or_imp]
    exact ⟨.inl hz, fun y hy => .inr (ih hzs y hy)⟩

/-- A byte has no bits above its eight (R82 b). -/
theorem isByte_setWidth (b : Byte) : Field.isByte (b.setWidth 12) = true := by
  rw [isByte_iff]
  ext i hi
  simp

theorem isIndex_setWidth (v : Index) : Field.isIndex (v.setWidth 12) = true := by
  rw [isIndex_iff]
  ext i hi
  simp

/-! ## What the assembler emits -/

theorem wellFormed_of_mem_loadFrom {mk : Field → Field → Instr} {ds : List Field}
    (h : ∀ a, ∀ d ∈ ds, (mk a d).WellFormed) (n : Nat) : ∀ i ∈ loadFrom mk n ds, i.WellFormed := by
  induction ds generalizing n with
  | nil => simp [loadFrom]
  | cons d ds ih =>
    simp only [List.forall_mem_cons, forall_and] at h
    simp only [loadFrom, List.forall_mem_cons]
    exact ⟨h.1 _, ih h.2 (n + 1)⟩

theorem wellFormed_of_mem_readFirst {mk : Field → Instr} (h : ∀ a, (mk a).WellFormed) (k : Nat) :
    ∀ i ∈ readFirst mk k, i.WellFormed := by
  simp only [readFirst, List.forall_mem_map]
  exact fun _ _ => h _

theorem Pseudo.wellFormed_of_mem_expand (q : Pseudo) : ∀ i ∈ q.expand, i.WellFormed := by
  have loadBytes (mk : Field → Field → Instr) (hmk : ∀ a d, (mk a d).wellFormed = d.isByte) (bytes : List Byte) :
      ∀ i ∈ loadFrom mk 0 (bytes.map (BitVec.setWidth 12)), i.WellFormed := by
    refine wellFormed_of_mem_loadFrom (fun a => List.forall_mem_map.mpr fun b _ => ?_) 0
    exact (hmk _ _).trans (isByte_setWidth b)
  cases q with
  | ldent bytes => exact loadBytes .lde (fun _ _ => rfl) bytes
  | ldidx indices =>
    exact wellFormed_of_mem_loadFrom (mk := .ldi) (fun _ => List.forall_mem_map.mpr fun v _ => isIndex_setWidth v) 0
  | rdent k => exact wellFormed_of_mem_readFirst (fun _ => rfl) k
  | rdidx k => exact wellFormed_of_mem_readFirst (fun _ => rfl) k
  | kldpw bytes => exact List.forall_mem_cons.mpr ⟨rfl, loadBytes .kldp (fun _ _ => rfl) bytes⟩
  | kldsalt bytes => exact List.forall_mem_cons.mpr ⟨rfl, loadBytes .klds (fun _ _ => rfl) bytes⟩
  | krdseed => exact wellFormed_of_mem_readFirst (fun _ => rfl) 64

theorem wellFormed_of_mem_assembleCommand {mnemonic : String} {operands : List (List Char)} {is : List Instr}
    (h : assembleCommand mnemonic operands = some is) : ∀ i ∈ is, i.WellFormed := by
  simp only [assembleCommand, Option.bind_eq_some_iff, Option.ite_none_right_eq_some] at h
  obtain ⟨_, -, i, -, hi, his⟩ := h
  cases his
  simpa using hi

theorem wellFormed_of_mem_assemblePseudo {z : BufferSizes} {mnemonic : String} {operands : List (List Char)}
    {is : List Instr} (h : assemblePseudo z mnemonic operands = some is) : ∀ i ∈ is, i.WellFormed := by
  simp only [assemblePseudo, Option.bind_eq_some_iff, Option.ite_none_right_eq_some] at h
  obtain ⟨q, -, -, his⟩ := h
  cases his
  exact q.wellFormed_of_mem_expand

theorem wellFormed_of_mem_assembleLine {z : BufferSizes} {line : List Char} {is : List Instr}
    (h : assembleLine z line = some is) : ∀ i ∈ is, i.WellFormed := by
  unfold assembleLine at h
  split at h
  · cases h
    simp
  · dsimp only at h
    split at h
    · next hcommand =>
      cases h
      exact wellFormed_of_mem_assembleCommand hcommand
    · exact wellFormed_of_mem_assemblePseudo h

/-- Settles O59: every line's commands are well-formed, written out or expanded, and the word of a well-formed command
decodes to it. -/
theorem assemblerEmitsOnlyCommandWords : Obligations.AssemblerEmitsOnlyCommandWords := by
  intro z text ws h w hw
  simp only [assemble, Option.map_eq_some_iff] at h
  obtain ⟨lines, hlines, rfl⟩ := h
  obtain ⟨i, hi, rfl⟩ := List.mem_map.mp hw
  obtain ⟨is, his, hi⟩ := List.mem_flatten.mp hi
  obtain ⟨line, -, hline⟩ := exists_of_mem_mapM hlines is his
  have hwf := wellFormed_of_mem_assembleLine hline i hi
  exact ⟨i, decode_encode hwf, hwf⟩

end Sys2Proof.Machine

/-! SUPPORT. What the expansions of the pseudo-instructions do (30_encoding.md R89): what one command of them does to a
block that is not faulted, and a rule for the run of a list of loads and one for a list of reads. -/

namespace Sys2Proof.Machine

/-! ## The buffers -/

/-- What the first `n` reads of a buffer answer. -/
theorem map_range_getD {α β : Type} {m n : Nat} (buf : Vector α m) (v : α) (f : α → β) (hn : n ≤ m) :
    ((List.range n).map fun x => f (buf.getD x v)) = (buf.toList.take n).map f := by
  refine List.ext_getElem (by simp [hn]) fun x hx _ => ?_
  have hxm : x < m := Nat.lt_of_lt_of_le (by simpa using hx) hn
  simp [Vector.getD, hxm]

theorem storeFirst_nil {α : Type} {n : Nat} (buf : Vector α n) : storeFirst buf [] = buf :=
  Vector.toList_inj.mp (by simp [storeFirst])

/-- One element more is stored by writing it behind the others. -/
theorem storeFirst_append_singleton {α : Type} {n : Nat} (buf : Vector α n) {xs : List α} (hxs : xs.length < n)
    (v : α) : storeFirst buf (xs ++ [v]) = (storeFirst buf xs).setIfInBounds xs.length v := by
  refine Vector.toList_inj.mp (List.ext_getElem? fun j => ?_)
  rw [Vector.getElem?_toList, Vector.getElem?_toList]
  obtain hlt | rfl | hgt := Nat.lt_trichotomy j xs.length
  · rw [storeFirst_getElem?_lt _ _ (List.length_append ▸ Nat.lt_add_right _ hlt) (by simpa using hxs),
      Vector.getElem?_setIfInBounds_ne hlt.ne', storeFirst_getElem?_lt _ _ hlt hxs.le, List.getElem?_append_left hlt]
  · rw [storeFirst_getElem?_lt _ _ (by simp) (by simpa using hxs), List.getElem?_concat_length,
      Vector.getElem?_setIfInBounds_self_of_lt hxs]
  · rw [storeFirst_getElem?_ge _ _ (by simpa using hgt), Vector.getElem?_setIfInBounds_ne hgt.ne,
      storeFirst_getElem?_ge _ _ hgt.le]

/-- The memory `m'` holds the bytes `bs` from address 0 up, and what `m` holds above them. -/
def Memory.Loaded (m : Memory) (bs : List Byte) (m' : Memory) : Prop :=
  m'.wf ∧ m'.bytes bs.length = bs ∧ ∀ x, bs.length ≤ x → m'.read x = m.read x

theorem Memory.loaded_nil {m : Memory} (hm : m.wf) : m.Loaded [] m := ⟨hm, rfl, fun _ _ => rfl⟩

theorem Memory.Loaded.write {m m' : Memory} {bs : List Byte} (h : m.Loaded bs m') (v : Byte) :
    m.Loaded (bs ++ [v]) (m'.write bs.length v) := by
  obtain ⟨hwf, hbytes, hrest⟩ := h
  refine ⟨Memory.write_wf hwf _ _, ?_, fun x hx => ?_⟩
  · have hbelow : (m'.write bs.length v).bytes bs.length = bs :=
      (Memory.bytes_congr fun x hx => Memory.read_write_other m' v (Nat.ne_of_lt hx)).trans hbytes
    rw [Memory.bytes] at hbelow
    simp [Memory.bytes, List.range_succ, hbelow, Memory.read_write_same hwf]
  · rw [List.length_append, List.length_singleton] at hx
    rw [Memory.read_write_other m' v (by omega), hrest x (by omega)]

/-! ## Performing one command of an expansion -/

theorem toNat_ofNat_field {x : Nat} (hx : x < 4096) : (BitVec.ofNat 12 x).toNat = x :=
  Nat.mod_eq_of_lt hx

theorem byteOperand_setWidth (b : Byte) : byteOperand (b.setWidth 12) = some b := by
  rw [byteOperand_of_isByte (isByte_setWidth b)]
  congr 1
  ext i hi
  simp [hi, show i < 12 by omega]

theorem indexOperand_setWidth (v : Index) : indexOperand (v.setWidth 12) = some v := by
  rw [indexOperand_of_isIndex (isIndex_setWidth v)]
  congr 1
  ext i hi
  simp [hi, show i < 12 by omega]

theorem withAddress_of_lt {a : Field} {x n : Nat} (ha : a.toNat = x) (hx : x < n) (s : State) (f : Nat → State) :
    withAddress a n s f = f x := by
  subst ha
  exact if_pos hx

section
variable {s : State} (live : s.err = 0#4)
include live

section
variable {a d : Field} {x : Nat} (ha : a.toNat = x)
include ha

theorem exec_lde_of_lt {b : Byte} (hd : byteOperand d = some b) (hx : x < 32) :
    exec (.lde a d) s = .next (respond 0#32 (s.setEnt (s.ent.setIfInBounds x b)).clearMatch) := by
  rw [exec, execLde, whenLive_of_live live, hd, withOperand, withAddress_of_lt ha hx]

theorem exec_ldi_of_lt {v : Index} (hd : indexOperand d = some v) (hx : x < 24) :
    exec (.ldi a d) s = .next (respond 0#32 (s.setIdx (s.idx.setIfInBounds x v)).clearMatch) := by
  rw [exec, execLdi, whenLive_of_live live, hd, withOperand, withAddress_of_lt ha hx]

theorem exec_rde_of_lt (hx : x < 32) : exec (.rde a) s = .next (respond ((s.ent.getD x 0#8).setWidth 32) s) := by
  rw [exec, execRde, whenLive_of_live live, withAddress_of_lt ha hx]

theorem exec_rdi_of_lt (hx : x < 24) : exec (.rdi a) s = .next (respond ((s.idx.getD x 0#11).setWidth 32) s) := by
  rw [exec, execRdi, whenLive_of_live live, withAddress_of_lt ha hx]

end

section
variable {k : KoState} (hk : s.ko = some k)
include hk

theorem exec_ksetp_of_le {d : Field} (hd : d.toNat ≤ s.sizes.pwMax) :
    exec (.ksetp d) s = .next (respond 0#32 (s.setKo (k.setPwLen d).clearSeed)) := by
  rw [exec, execKsetp, whenKo_of_live live hk, lengthOperand, if_neg (Nat.not_lt.mpr hd)]

theorem exec_ksets_of_le {d : Field} (hd : d.toNat ≤ s.sizes.saltMax) :
    exec (.ksets d) s = .next (respond 0#32 (s.setKo (k.setSaltLen d).clearSeed)) := by
  rw [exec, execKsets, whenKo_of_live live hk, lengthOperand, if_neg (Nat.not_lt.mpr hd)]

section
variable {a d : Field} {x : Nat} (ha : a.toNat = x)
include ha

theorem exec_kldp_of_lt {b : Byte} (hd : byteOperand d = some b) (hx : x < s.sizes.pwMax) :
    exec (.kldp a d) s = .next (respond 0#32 (s.setKo (k.setPw (k.pw.write x b)).clearSeed)) := by
  rw [exec, execKldp, whenKo_of_live live hk, hd, withOperand, withAddress_of_lt ha hx]

theorem exec_klds_of_lt {b : Byte} (hd : byteOperand d = some b) (hx : x < s.sizes.saltMax) :
    exec (.klds a d) s = .next (respond 0#32 (s.setKo (k.setSalt (k.salt.write x b)).clearSeed)) := by
  rw [exec, execKlds, whenKo_of_live live hk, hd, withOperand, withAddress_of_lt ha hx]

theorem exec_krds_of_lt (hx : x < 64) (hdone : k.kdone = true) :
    exec (.krds a) s = .next (respond ((k.seed.getD x 0#8).setWidth 32) s) := by
  rw [exec, execKrds, whenKo_of_live live hk, withAddress_of_lt ha hx, if_pos hdone]

end

end

end

/-! ## Runs of loads and of reads -/

@[simp] theorem runCommands_nil (z : BufferSizes) (b : BlockState) : runCommands z [] b = (b, []) := rfl

section
variable {z : BufferSizes} {b : BlockState}

/-- A command alone does what `exec` does. -/
theorem runCommands_singleton {i : Instr} {c : BlockState} {v : Word} (hi : i.WellFormed)
    (h : exec i { toBlockState := b, sizes := z, input := [], output := [] } =
      .next { toBlockState := c, sizes := z, input := [], output := [v] }) : runCommands z [i] b = (c, [v]) := by
  rw [runCommands_cons (decode_encode hi) h, runCommands_nil]

/-- Two runs with known effects, one after the other. -/
theorem runCommands_append_of {is js : List Instr} {c d : BlockState} {ws vs : List Word}
    (his : runCommands z is b = (c, ws)) (hjs : runCommands z js c = (d, vs)) :
    runCommands z (is ++ js) b = (d, ws ++ vs) := by
  rw [runCommands_append, his, hjs]

theorem loadFrom_append_singleton (mk : Field → Field → Instr) (n : Nat) (ds : List Field) (d : Field) :
    loadFrom mk n (ds ++ [d]) = loadFrom mk n ds ++ [mk (BitVec.ofNat 12 (n + ds.length)) d] := by
  induction ds generalizing n with
  | nil => rfl
  | cons _ _ ih => simp [loadFrom, ih, Nat.add_right_comm, ← Nat.add_assoc]

/-- The rule for loads: a load that answers 0 and takes a block in which the values so far are loaded to one in which
its value is loaded too, up to `n` values, makes the loads from address 0 up load all values. -/
theorem runCommands_loadFrom {α : Type} {mk : Field → Field → Instr} {field : α → Field} {n : Nat}
    {loaded : List α → BlockState → Prop} (hnil : loaded [] b)
    (hload : ∀ vs v c, vs.length < n → loaded vs c →
      ∃ c', loaded (vs ++ [v]) c' ∧ runCommands z [mk (BitVec.ofNat 12 vs.length) (field v)] c = (c', [0#32]))
    {vs : List α} (hvs : vs.length ≤ n) :
    ∃ c, loaded vs c ∧ runCommands z (loadFrom mk 0 (vs.map field)) b = (c, List.replicate vs.length 0#32) := by
  induction vs using List.reverseRecOn with
  | nil => exact ⟨b, hnil, rfl⟩
  | append_singleton vs v ih =>
    rw [List.length_append, List.length_singleton] at hvs
    obtain ⟨c, hc, hrun⟩ := ih (by omega)
    obtain ⟨c', hc', hrun'⟩ := hload vs v c hvs hc
    refine ⟨c', hc', ?_⟩
    rw [List.map_append, List.map_singleton, loadFrom_append_singleton, List.length_map, Nat.zero_add,
      List.length_append, List.length_singleton, List.replicate_succ']
    exact runCommands_append_of hrun hrun'

/-- The rule for reads: commands that only answer, up to address `n`. -/
theorem runCommands_readFirst {mk : Field → Instr} {answer : Nat → Word} {n : Nat}
    (hread : ∀ x < n, runCommands z [mk (BitVec.ofNat 12 x)] b = (b, [answer x])) :
    runCommands z (readFirst mk n) b = (b, (List.range n).map answer) := by
  induction n with
  | zero => rfl
  | succ n ih =>
    rw [readFirst, List.range_succ, List.map_append, List.map_append]
    exact runCommands_append_of (ih fun x hx => hread x (by omega)) (hread n (by omega))

end

/-- The loads of `KLDPW` and `KLDSALT`: `put` is the block with a password or salt buffer, and each load writes one byte
of it. -/
theorem runCommands_loadFrom_memory {z : BufferSizes} {mk : Field → Field → Instr} {n : Nat}
    {put : Memory → BlockState} {m : Memory} (hm : m.wf)
    (hload : ∀ x v m, x < n →
      runCommands z [mk (BitVec.ofNat 12 x) (BitVec.setWidth 12 v)] (put m) = (put (m.write x v), [0#32]))
    {bs : List Byte} (hbs : bs.length ≤ n) : ∃ m', m.Loaded bs m' ∧
      runCommands z (loadFrom mk 0 (bs.map (BitVec.setWidth 12))) (put m) =
        (put m', List.replicate bs.length 0#32) := by
  obtain ⟨_, ⟨m', hm', rfl⟩, hrun⟩ := runCommands_loadFrom (z := z) (mk := mk) (field := BitVec.setWidth 12)
    (loaded := fun bs c => ∃ m', m.Loaded bs m' ∧ c = put m') ⟨m, Memory.loaded_nil hm, rfl⟩
    (fun bs v c hlt ⟨m', hm', hc⟩ => ⟨_, ⟨_, hm'.write v, rfl⟩, hc ▸ hload bs.length v m' hlt⟩) hbs
  exact ⟨m', hm', hrun⟩

/-! ## The expansions -/

/-- The block after the first loads of `LDENT`, those of the bytes `bs`. -/
def BlockState.loadEnt (b : BlockState) (bs : List Byte) : BlockState :=
  { b with ent := storeFirst b.ent bs, matched := b.matched && bs.isEmpty }

theorem BlockState.loadEnt_nil (b : BlockState) : b.loadEnt [] = b := by simp [loadEnt, storeFirst_nil]

theorem BlockState.loadEnt_of_ne_nil (b : BlockState) {bs : List Byte} (hbs : bs ≠ []) :
    b.loadEnt bs = { b with ent := storeFirst b.ent bs, matched := false } := by
  simp [loadEnt, hbs]

/-- The block after the first loads of `LDIDX`, those of the indices `vs`. -/
def BlockState.loadIdx (b : BlockState) (vs : List Index) : BlockState :=
  { b with idx := storeFirst b.idx vs, matched := b.matched && vs.isEmpty }

theorem BlockState.loadIdx_nil (b : BlockState) : b.loadIdx [] = b := by simp [loadIdx, storeFirst_nil]

theorem BlockState.loadIdx_of_ne_nil (b : BlockState) {vs : List Index} (hvs : vs ≠ []) :
    b.loadIdx vs = { b with idx := storeFirst b.idx vs, matched := false } := by
  simp [loadIdx, hvs]

/-- The KO's fields with the password's length `n` set and `m` in its buffer, the seed cleared. -/
def KoState.withPassword (k : KoState) (n : BitVec 12) (m : Memory) : KoState := ((k.setPwLen n).setPw m).clearSeed

/-- The KO's fields with the salt's length `n` set and `m` in its buffer, the seed cleared. -/
def KoState.withSalt (k : KoState) (n : BitVec 12) (m : Memory) : KoState := ((k.setSaltLen n).setSalt m).clearSeed

/-- The block with the KO's fields replaced. -/
def BlockState.withKo (b : BlockState) (k : KoState) : BlockState := { b with ko := some k }

section
variable {z : BufferSizes} {b : BlockState} (live : b.err = 0#4)
include live

/-! ### One load of each expansion -/

theorem runCommands_lde_loadEnt {bs : List Byte} (hbs : bs.length < 32) (v : Byte) :
    runCommands z [.lde (BitVec.ofNat 12 bs.length) (v.setWidth 12)] (b.loadEnt bs) =
      (b.loadEnt (bs ++ [v]), [0#32]) := by
  rw [b.loadEnt_of_ne_nil (List.concat_ne_nil _ _), storeFirst_append_singleton _ hbs]
  exact runCommands_singleton (isByte_setWidth v)
    (exec_lde_of_lt live (toNat_ofNat_field (by omega)) (byteOperand_setWidth v) hbs)

theorem runCommands_ldi_loadIdx {vs : List Index} (hvs : vs.length < 24) (v : Index) :
    runCommands z [.ldi (BitVec.ofNat 12 vs.length) (v.setWidth 12)] (b.loadIdx vs) =
      (b.loadIdx (vs ++ [v]), [0#32]) := by
  rw [b.loadIdx_of_ne_nil (List.concat_ne_nil _ _), storeFirst_append_singleton _ hvs]
  exact runCommands_singleton (isIndex_setWidth v)
    (exec_ldi_of_lt live (toNat_ofNat_field (by omega)) (indexOperand_setWidth v) hvs)

theorem runCommands_kldp_withPassword (hz : z.wf) {x : Nat} (hx : x < z.pwMax) (k : KoState) (n : BitVec 12)
    (m : Memory) (v : Byte) :
    runCommands z [.kldp (BitVec.ofNat 12 x) (v.setWidth 12)] (b.withKo (k.withPassword n m)) =
      (b.withKo (k.withPassword n (m.write x v)), [0#32]) :=
  runCommands_singleton (isByte_setWidth v)
    (exec_kldp_of_lt (k := k.withPassword n m) live rfl (toNat_ofNat_field (by omega)) (byteOperand_setWidth v) hx)

theorem runCommands_klds_withSalt (hz : z.wf) {x : Nat} (hx : x < z.saltMax) (k : KoState) (n : BitVec 12) (m : Memory)
    (v : Byte) : runCommands z [.klds (BitVec.ofNat 12 x) (v.setWidth 12)] (b.withKo (k.withSalt n m)) =
      (b.withKo (k.withSalt n (m.write x v)), [0#32]) :=
  runCommands_singleton (isByte_setWidth v)
    (exec_klds_of_lt (k := k.withSalt n m) live rfl (toNat_ofNat_field (by omega)) (byteOperand_setWidth v) hx)

/-! ### The whole expansions -/

theorem runCommands_ldent {bs : List Byte} (hbs : bs.length ≤ 32) :
    runCommands z (Pseudo.ldent bs).expand b = (b.loadEnt bs, List.replicate bs.length 0#32) := by
  obtain ⟨_, rfl, hrun⟩ := runCommands_loadFrom (z := z) (mk := .lde) (field := BitVec.setWidth 12)
    (loaded := fun bs c => c = b.loadEnt bs) b.loadEnt_nil.symm
    (fun bs v c hlt hc => ⟨_, rfl, hc ▸ runCommands_lde_loadEnt live hlt v⟩) hbs
  exact hrun

theorem runCommands_ldidx {vs : List Index} (hvs : vs.length ≤ 24) :
    runCommands z (Pseudo.ldidx vs).expand b = (b.loadIdx vs, List.replicate vs.length 0#32) := by
  obtain ⟨_, rfl, hrun⟩ := runCommands_loadFrom (z := z) (mk := .ldi) (field := BitVec.setWidth 12)
    (loaded := fun vs c => c = b.loadIdx vs) b.loadIdx_nil.symm
    (fun vs v c hlt hc => ⟨_, rfl, hc ▸ runCommands_ldi_loadIdx live hlt v⟩) hvs
  exact hrun

theorem runCommands_kldpw (hz : z.wf) {k : KoState} (hk : b.ko = some k) (hwf : k.pw.wf) {bs : List Byte}
    (hbs : bs.length ≤ z.pwMax) : ∃ m, k.pw.Loaded bs m ∧ runCommands z (Pseudo.kldpw bs).expand b =
      (b.withKo (k.withPassword (BitVec.ofNat 12 bs.length) m), List.replicate (bs.length + 1) 0#32) := by
  have hlen : (BitVec.ofNat 12 bs.length).toNat = bs.length := toNat_ofNat_field (by omega)
  have hset : runCommands z [.ksetp (BitVec.ofNat 12 bs.length)] b =
      (b.withKo (k.withPassword (BitVec.ofNat 12 bs.length) k.pw), [0#32]) :=
    runCommands_singleton rfl (exec_ksetp_of_le (k := k) live hk (hlen.trans_le hbs))
  obtain ⟨m, hm, hrun⟩ := runCommands_loadFrom_memory (z := z) (put := fun m => b.withKo (k.withPassword _ m)) hwf
    (fun x v m hx => runCommands_kldp_withPassword live hz hx k _ m v) hbs
  exact ⟨m, hm, runCommands_append_of hset hrun⟩

theorem runCommands_kldsalt (hz : z.wf) {k : KoState} (hk : b.ko = some k) (hwf : k.salt.wf) {bs : List Byte}
    (hbs : bs.length ≤ z.saltMax) : ∃ m, k.salt.Loaded bs m ∧ runCommands z (Pseudo.kldsalt bs).expand b =
      (b.withKo (k.withSalt (BitVec.ofNat 12 bs.length) m), List.replicate (bs.length + 1) 0#32) := by
  have hlen : (BitVec.ofNat 12 bs.length).toNat = bs.length := toNat_ofNat_field (by omega)
  have hset : runCommands z [.ksets (BitVec.ofNat 12 bs.length)] b =
      (b.withKo (k.withSalt (BitVec.ofNat 12 bs.length) k.salt), [0#32]) :=
    runCommands_singleton rfl (exec_ksets_of_le (k := k) live hk (hlen.trans_le hbs))
  obtain ⟨m, hm, hrun⟩ := runCommands_loadFrom_memory (z := z) (put := fun m => b.withKo (k.withSalt _ m)) hwf
    (fun x v m hx => runCommands_klds_withSalt live hz hx k _ m v) hbs
  exact ⟨m, hm, runCommands_append_of hset hrun⟩

theorem runCommands_rdent {n : Nat} (hn : n ≤ 32) :
    runCommands z (Pseudo.rdent n).expand b = (b, (b.ent.toList.take n).map (BitVec.setWidth 32)) := by
  rw [← map_range_getD b.ent 0#8 _ hn]
  refine runCommands_readFirst fun x hx => runCommands_singleton rfl ?_
  exact exec_rde_of_lt live (toNat_ofNat_field (by omega)) (by omega)

theorem runCommands_rdidx {n : Nat} (hn : n ≤ 24) :
    runCommands z (Pseudo.rdidx n).expand b = (b, (b.idx.toList.take n).map (BitVec.setWidth 32)) := by
  rw [← map_range_getD b.idx 0#11 _ hn]
  refine runCommands_readFirst fun x hx => runCommands_singleton rfl ?_
  exact exec_rdi_of_lt live (toNat_ofNat_field (by omega)) (by omega)

theorem runCommands_krdseed {k : KoState} (hk : b.ko = some k) (hdone : k.kdone = true) :
    runCommands z Pseudo.krdseed.expand b = (b, k.seed.toList.map (BitVec.setWidth 32)) := by
  have htake : k.seed.toList.take 64 = k.seed.toList := List.take_of_length_le (by simp)
  rw [← htake, ← map_range_getD k.seed 0#8 _ (Nat.le_refl 64)]
  refine runCommands_readFirst fun x hx => runCommands_singleton rfl ?_
  exact exec_krds_of_lt live hk (toNat_ofNat_field (by omega)) (by omega) hdone

end

/-- Settles O60: each expansion is run by the rule for loads or the rule for reads, its single command by what `exec`
answers. -/
theorem pseudoInstructionsLoadAndReadTheBuffers : Obligations.PseudoInstructionsLoadAndReadTheBuffers := by
  intro z b live
  refine ⟨fun bs hpos hbs => ?ldent, fun vs hpos hvs => ?ldidx, fun n hn => runCommands_rdent live hn,
    fun n hn => runCommands_rdidx live hn, fun k hk => ⟨fun hz hwf bs hbs => ?kldpw, fun hz hwf bs hbs => ?kldsalt,
      runCommands_krdseed live hk⟩⟩
  case ldent =>
    refine ⟨storeFirst b.ent bs, ?_, fun _ hj => storeFirst_getElem?_lt _ _ hj hbs,
      fun _ hj => storeFirst_getElem?_ge _ _ hj⟩
    rw [runCommands_ldent live hbs, b.loadEnt_of_ne_nil (List.length_pos_iff.mp hpos)]
  case ldidx =>
    refine ⟨storeFirst b.idx vs, ?_, fun _ hj => storeFirst_getElem?_lt _ _ hj hvs,
      fun _ hj => storeFirst_getElem?_ge _ _ hj⟩
    rw [runCommands_ldidx live hvs, b.loadIdx_of_ne_nil (List.length_pos_iff.mp hpos)]
  case kldpw =>
    obtain ⟨m, ⟨-, hbytes, hrest⟩, hrun⟩ := runCommands_kldpw live hz hk hwf hbs
    exact ⟨_, m, hrun, toNat_ofNat_field (by omega), hbytes, hrest⟩
  case kldsalt =>
    obtain ⟨m, ⟨-, hbytes, hrest⟩, hrun⟩ := runCommands_kldsalt live hz hk hwf hbs
    exact ⟨_, m, hrun, toNat_ofNat_field (by omega), hbytes, hrest⟩

end Sys2Proof.Machine

/-! SUPPORT. The block commands `NOP`, `CLR` and `RDS` (40_system_commands.md R100 to R102): the words with the opcode
of a format-Z command that are no command, and the bits of `STATUS` (R30). -/

namespace Sys2Proof.Machine

open Sys2Proof.Laws.Encoding (opcode)

/-! ## Words of format Z with a field that is not zero -/

/-- The opcodes of the commands of format Z, which has neither address nor data (R81). -/
def formatZOpcodes : List (BitVec 8) := [0x00#8, 0x01#8, 0x02#8, 0x17#8, 0x18#8, 0x19#8, 0x1A#8, 0x24#8]

theorem encode_ne_commandWord_of_formatZ {op : BitVec 8} {a d : Field} (hop : op ∈ formatZOpcodes)
    (had : a ≠ 0#12 ∨ d ≠ 0#12) (i : Instr) : encode i ≠ commandWord op a d := by
  intro heq
  have hi : opcode i ∈ formatZOpcodes := by rwa [← opField_encode, heq, opField_commandWord]
  have ha := aField_encode_eq_zero (List.mem_append_left _ hi)
  have hd := dField_encode_eq_zero (List.mem_append_left _ hi)
  rw [heq, aField_commandWord] at ha
  rw [heq, dField_commandWord] at hd
  exact had.elim (· ha) (· hd)

section
variable {s : State}

/-- A word that is the encoding of no well-formed command is ignored by a faulted block (R90, R204). -/
theorem step_withCommand_of_not_encode (hfault : s.err ≠ 0#4) {cw : Word}
    (h : ∀ i : Instr, i.WellFormed → encode i ≠ cw) : step (s.withCommand cw) = .next (ignored s) := by
  cases hd : decode cw with
  | command i =>
    obtain ⟨hi, hcw⟩ := wellFormed_and_encode_of_decode hd
    exact absurd hcw (h i hi)
  | illegal why => exact (step_of_illegal rfl hd).trans (congrArg _ (whenLive_of_faulted hfault _))

variable {op : BitVec 8} (hop : op ∈ formatZOpcodes) (a d : Field) (had : a ≠ 0#12 ∨ d ≠ 0#12)
include hop had

theorem raisesIllegal_of_formatZ (live : s.err = 0#4) : RaisesIllegal s (commandWord op a d) :=
  raisesIllegal_of_not_encode live fun i _ => encode_ne_commandWord_of_formatZ hop had i

theorem step_withCommand_of_formatZ (hfault : s.err ≠ 0#4) :
    step (s.withCommand (commandWord op a d)) = .next (ignored s) :=
  step_withCommand_of_not_encode hfault fun i _ => encode_ne_commandWord_of_formatZ hop had i

end

/-! ## The bits of STATUS -/

theorem getLsbD_flagWord (b : Bool) (n : Nat) : (flagWord b).getLsbD n = (decide (n = 0) && b) := by
  cases n <;> simp [flagWord, BitVec.getLsbD_setWidth]

section
variable (s : State)

/-- Each bit of `STATUS` is a bit of one field, or zero (R30). -/
theorem getLsbD_statusWord (n : Nat) : (statusWord s).getLsbD n =
    (s.sel.getLsbD n || decide (n = 3) && s.matched || decide (n = 4) && s.ko.any (·.kdone) ||
      decide (n = 5) && s.hasKo || decide (8 ≤ n) && s.err.getLsbD (n - 8)) := by
  have hsel : 3 ≤ n → s.sel.getLsbD n = false := BitVec.getLsbD_of_ge _ _
  have herr : 4 ≤ n - 8 → s.err.getLsbD (n - 8) = false := BitVec.getLsbD_of_ge _ _
  simp only [statusWord, BitVec.getLsbD_or, BitVec.getLsbD_shiftLeft, BitVec.getLsbD_setWidth, getLsbD_flagWord]
  grind

theorem statusWord_sel : (statusWord s).extractLsb' 0 3 = s.sel := by
  apply BitVec.eq_of_getLsbD_eq
  intro n hn
  rw [BitVec.getLsbD_extractLsb', getLsbD_statusWord]
  grind

theorem statusWord_matched : (statusWord s).getLsbD 3 = s.matched := by
  rw [getLsbD_statusWord]
  simp

theorem statusWord_kdone : (statusWord s).getLsbD 4 = s.ko.any (·.kdone) := by
  rw [getLsbD_statusWord]
  simp

theorem statusWord_hasKo : (statusWord s).getLsbD 5 = s.hasKo := by
  rw [getLsbD_statusWord]
  simp

theorem statusWord_err : (statusWord s).extractLsb' 8 4 = s.err := by
  apply BitVec.eq_of_getLsbD_eq
  intro n hn
  rw [BitVec.getLsbD_extractLsb', getLsbD_statusWord]
  grind

/-- A bit that belongs to no field: bits 7:6 and 31:12. -/
theorem getLsbD_statusWord_reserved {n : Nat} (hn : 6 ≤ n ∧ n < 8 ∨ 12 ≤ n) : (statusWord s).getLsbD n = false := by
  rw [getLsbD_statusWord]
  grind

theorem statusWord_reserved {k w : Nat} (hk : 6 ≤ k ∧ k + w ≤ 8 ∨ 12 ≤ k) :
    (statusWord s).extractLsb' k w = 0#w := by
  apply BitVec.eq_of_getLsbD_eq
  intro n hn
  rw [BitVec.getLsbD_extractLsb', getLsbD_statusWord_reserved s (by omega), BitVec.getLsbD_zero, Bool.and_false]

end

theorem statusWord_of_reset {t : State} {hasKo : Bool} (ht : t.toBlockState = BlockState.reset hasKo) :
    statusWord t = if hasKo then 0x00000020#32 else 0x00000000#32 := by
  rw [statusWord, ht]
  cases hasKo <;> rfl

/-! ## The three commands -/

/-- Settles O21: the guard `whenLive` decides what `NOP` does, and its format Z which words are `NOP`. -/
theorem nopDoesNothing : Obligations.NopDoesNothing :=
  ⟨rfl, fun _ => ⟨fun live => congrArg _ (whenLive_of_live live _),
    fun hfault => congrArg _ (whenLive_of_faulted hfault _), raisesIllegal_of_formatZ (by decide)⟩⟩

/-- Settles O22: `CLR` has no guard and leaves `BlockState.reset`, whose `STATUS` is `HASKO` alone. -/
theorem clrGivesEveryFieldItsResetValue : Obligations.ClrGivesEveryFieldItsResetValue := by
  refine ⟨rfl, fun s => ⟨rfl, ?_, raisesIllegal_of_formatZ (by decide), step_withCommand_of_formatZ (by decide)⟩⟩
  rintro t ⟨⟩
  exact statusWord_of_reset s.clear_toBlockState

/-- Settles O23: `RDS` has no guard and answers `statusWord`, whose bits are those of `getLsbD_statusWord`. -/
theorem rdsAnswersStatus : Obligations.RdsAnswersStatus := by
  refine ⟨rfl, fun s => ⟨⟨statusWord s, rfl, ?_⟩, raisesIllegal_of_formatZ (by decide),
    step_withCommand_of_formatZ (by decide)⟩⟩
  exact ⟨statusWord_sel s, statusWord_matched s, statusWord_kdone s, statusWord_hasKo s,
    statusWord_reserved s (by decide), statusWord_err s, statusWord_reserved s (by decide)⟩

end Sys2Proof.Machine

/-! SUPPORT. The length table and its two selections, `SETLEN` and `SETWC` (41_length_select.md R110 to R114). -/

namespace Sys2Proof.Machine

/-! ## The length table -/

/-- The closed form of R110: a row is determined by its number. -/
theorem lengthRow_closedForm {k : BitVec 3} {r : LengthRow} (hr : lengthRow k = some r) :
    r = ⟨12 + 4 * k.toNat, 3 + k.toNat, 9 + 3 * k.toNat⟩ := by
  have closedForm : ∀ k : BitVec 3, ∀ r ∈ lengthRow k, r = ⟨12 + 4 * k.toNat, 3 + k.toNat, 9 + 3 * k.toNat⟩ := by
    decide
  exact closedForm k r hr

/-- No two rows have the same word count (R114). -/
theorem lengthRow_injOn_words {k k' : BitVec 3} {r r' : LengthRow} (hr : lengthRow k = some r)
    (hr' : lengthRow k' = some r') (hwords : r'.words = r.words) : k' = k := by
  obtain rfl := lengthRow_closedForm hr
  obtain rfl := lengthRow_closedForm hr'
  apply BitVec.eq_of_toNat_eq
  dsimp only at hwords
  omega

/-- Settles O24: the rows by evaluation, the relations between their columns by arithmetic on the closed form. -/
theorem lengthTableHasTheFiveRows : Obligations.LengthTableHasTheFiveRows := by
  refine ⟨rfl, rfl, rfl, rfl, rfl, rfl, fun k r hr => ?_⟩
  have inverse (k' : BitVec 3) (r' : LengthRow) (hr' : lengthRow k' = some r') (hwords : r'.words = r.words) :
      k' = k ∧ r'.len = r.len := by
    obtain rfl := lengthRow_injOn_words hr hr' hwords
    cases hr.symm.trans hr'
    exact ⟨rfl, rfl⟩
  obtain rfl := lengthRow_closedForm hr
  dsimp only at inverse ⊢
  exact ⟨rfl, rfl, rfl, by omega, by omega, by omega, by omega, by omega, by omega, inverse⟩

/-! ## The two selections -/

/-- The operands of `SETLEN` that select a row, with its number (R111). -/
def entropyLengthRows : List (Field × BitVec 3) :=
  [(16#12, 1#3), (20#12, 2#3), (24#12, 3#3), (28#12, 4#3), (32#12, 5#3)]

/-- The operands of `SETWC` that select a row, with its number (R112). -/
def wordCountRows : List (Field × BitVec 3) :=
  [(12#12, 1#3), (15#12, 2#3), (18#12, 3#3), (21#12, 4#3), (24#12, 5#3)]

theorem selOfLength_eq_some_iff (d : Field) (k : BitVec 3) :
    selOfLength d = some k ↔ (d, k) ∈ entropyLengthRows := by
  constructor
  · intro h
    unfold selOfLength lengthOperand at h
    split at h <;> cases h
    all_goals
      next hd => simp [entropyLengthRows, ← BitVec.toNat_inj, hd]
  · have listed : ∀ p ∈ entropyLengthRows, selOfLength p.1 = some p.2 := by
      simp [entropyLengthRows, selOfLength, lengthOperand]
    exact listed (d, k)

theorem selOfWordCount_eq_some_iff (d : Field) (k : BitVec 3) :
    selOfWordCount d = some k ↔ (d, k) ∈ wordCountRows := by
  constructor
  · intro h
    unfold selOfWordCount lengthOperand at h
    split at h <;> cases h
    all_goals
      next hd => simp [wordCountRows, ← BitVec.toNat_inj, hd]
  · have listed : ∀ p ∈ wordCountRows, selOfWordCount p.1 = some p.2 := by
      simp [wordCountRows, selOfWordCount, lengthOperand]
    exact listed (d, k)

section
variable {s : State} (live : s.err = 0#4)
include live

/-- A word with the opcode of a format without an address, and an address that is not zero, is no command (R83). -/
theorem raisesIllegal_of_address {op : BitVec 8} (hop : op ∈ [0x00#8, 0x01#8, 0x02#8, 0x17#8, 0x18#8, 0x19#8, 0x1A#8,
    0x24#8, 0x10#8, 0x11#8, 0x14#8, 0x20#8, 0x21#8]) (a d : Field) (ha : a ≠ 0#12) :
    RaisesIllegal s (commandWord op a d) := by
  refine mustBeZeroBitsAreIllegal s _ live (.inl ⟨?_, ?_⟩)
  · rwa [← opField, opField_commandWord]
  · rwa [← aField, aField_commandWord]

variable {rowOf : Field → Option (BitVec 3)} {rows : List (Field × BitVec 3)}
  (hrows : ∀ d k, rowOf d = some k ↔ (d, k) ∈ rows) (c : Cause)
include hrows

theorem whenLive_selectRow_of_mem (d : Field) (k : BitVec 3) (hd : (d, k) ∈ rows) :
    whenLive s (selectRow (rowOf d) c s) = respond 0#32 (s.setSel k).clearMatch := by
  rw [whenLive_of_live live, (hrows d k).mpr hd, selectRow]

theorem whenLive_selectRow_of_not_mem (d : Field) (hd : d ∉ rows.map Prod.fst) :
    whenLive s (selectRow (rowOf d) c s) = raise c s := by
  have hrow : rowOf d = none := Option.eq_none_iff_forall_ne_some.mpr fun k hk =>
    hd (List.mem_map_of_mem (f := Prod.fst) ((hrows d k).mp hk))
  rw [whenLive_of_live live, hrow, selectRow]

end

/-- Settles O25: an operand selects what `entropyLengthRows` lists for it, and an address makes the word illegal. -/
theorem setlenSelectsByEntropyLength : Obligations.SetlenSelectsByEntropyLength :=
  ⟨fun _ => rfl, fun _ live =>
    ⟨fun d k hd => congrArg _ (whenLive_selectRow_of_mem live selOfLength_eq_some_iff .invalidLength d k hd),
      fun d hd => congrArg _ (whenLive_selectRow_of_not_mem live selOfLength_eq_some_iff .invalidLength d hd),
      raisesIllegal_of_address live (by decide)⟩⟩

/-- Settles O26: an operand selects what `wordCountRows` lists for it, and an address makes the word illegal. -/
theorem setwcSelectsByWordCount : Obligations.SetwcSelectsByWordCount :=
  ⟨fun _ => rfl, fun _ live =>
    ⟨fun d k hd => congrArg _ (whenLive_selectRow_of_mem live selOfWordCount_eq_some_iff .invalidWordCount d k hd),
      fun d hd => congrArg _ (whenLive_selectRow_of_not_mem live selOfWordCount_eq_some_iff .invalidWordCount d hd),
      raisesIllegal_of_address live (by decide)⟩⟩

end Sys2Proof.Machine

/-! SUPPORT. The reads and writes of one buffer element or register, `LDE`, `RDE`, `LDH`, `LDI`, `RDI` and `RDC`
(42_buffer_access.md R120 to R125): what they do when an operand does not fit or an address is out of range, which words
with their opcodes are no command, and what `RDC` answers after `UNPACK`. -/

namespace Sys2Proof.Machine

/-! ## Words with a must-be-zero bit set in `d` -/

section
variable {s : State} (live : s.err = 0#4) (a : Field) {d : Field}
include live

/-- A word with the opcode of a format without data, and data that is not zero, is no command (R83). -/
theorem raisesIllegal_of_data {op : BitVec 8} (hop : op ∈ [0x00#8, 0x01#8, 0x02#8, 0x17#8, 0x18#8, 0x19#8, 0x1A#8,
    0x24#8, 0x13#8, 0x16#8, 0x25#8]) (hd : d ≠ 0#12) : RaisesIllegal s (commandWord op a d) := by
  refine mustBeZeroBitsAreIllegal s _ live (.inr (.inl ⟨?_, ?_⟩))
  · rwa [← opField, opField_commandWord]
  · rwa [← dField, dField_commandWord]

/-- A word with the opcode of a byte operand that does not fit is no command (R82 b, R83). -/
theorem raisesIllegal_of_wide_byte {op : BitVec 8} (hop : op ∈ [0x12#8, 0x14#8, 0x22#8, 0x23#8])
    (hd : d.extractLsb' 8 4 ≠ 0#4) : RaisesIllegal s (commandWord op a d) := by
  refine mustBeZeroBitsAreIllegal s _ live (.inr (.inr (.inl ⟨?_, ?_⟩)))
  · rwa [← opField, opField_commandWord]
  · rwa [← extractLsb'_dField _ (by decide), dField_commandWord]

/-- A word with the opcode of `LDI` and an index operand that does not fit is no command (R82 c, R83). -/
theorem raisesIllegal_of_wide_index (hd : d.extractLsb' 11 1 ≠ 0#1) : RaisesIllegal s (commandWord 0x15#8 a d) := by
  refine mustBeZeroBitsAreIllegal s _ live (.inr (.inr (.inr ⟨?_, ?_⟩)))
  · rw [← opField, opField_commandWord]
  · rwa [← extractLsb'_dField _ (by decide), dField_commandWord]

end

/-! ## The operands of the writes -/

section
variable {d : Field}

theorem byteOperand_eq_some (hd : d.extractLsb' 8 4 = 0#4) : byteOperand d = some (d.extractLsb' 0 8) :=
  byteOperand_of_isByte (isByte_iff.mpr hd)

theorem byteOperand_eq_none (hd : d.extractLsb' 8 4 ≠ 0#4) : byteOperand d = none :=
  byteOperand_of_not_isByte (Bool.eq_false_iff.mpr (mt isByte_iff.mp hd))

theorem indexOperand_eq_some (hd : d.extractLsb' 11 1 = 0#1) : indexOperand d = some (d.extractLsb' 0 11) :=
  indexOperand_of_isIndex (isIndex_iff.mpr hd)

theorem indexOperand_eq_none (hd : d.extractLsb' 11 1 ≠ 0#1) : indexOperand d = none :=
  indexOperand_of_not_isIndex (Bool.eq_false_iff.mpr (mt isIndex_iff.mp hd))

end

/-! ## The guards, the operand and the address known -/

theorem withAddress_of_le {a : Field} {n : Nat} (ha : n ≤ a.toNat) (s : State) (f : Nat → State) :
    withAddress a n s f = raise .badAddress s :=
  if_neg (Nat.not_lt.mpr ha)

section
variable {s : State} (live : s.err = 0#4) {α : Type} {o : Option α}
include live

theorem whenLive_withOperand_of_none (ho : o = none) (f : α → State) :
    whenLive s (withOperand o s f) = raise .illegalCommand s := by
  rw [whenLive_of_live live, ho, withOperand]

theorem whenLive_withOperand_of_some {v : α} (ho : o = some v) (f : α → State) :
    whenLive s (withOperand o s f) = f v := by
  rw [whenLive_of_live live, ho, withOperand]

theorem whenLive_withAddress_of_le {a : Field} {n : Nat} (ha : n ≤ a.toNat) (f : Nat → State) :
    whenLive s (withAddress a n s f) = raise .badAddress s := by
  rw [whenLive_of_live live, withAddress_of_le ha]

/-- A write whose operand fits and whose address is out of range raises `BadAddress` (R202). -/
theorem whenLive_withOperand_withAddress_of_le {v : α} (ho : o = some v) {a : Field} {n : Nat} (ha : n ≤ a.toNat)
    (f : α → Nat → State) :
    whenLive s (withOperand o s fun w => withAddress a n s (f w)) = raise .badAddress s := by
  rw [whenLive_withOperand_of_some live ho, withAddress_of_le ha]

end

/-! ## One element of a buffer -/

theorem getElem?_eq_some_getD {α : Type} {n x : Nat} (buf : Vector α n) (hx : x < n) (v : α) :
    buf[x]? = some (buf.getD x v) := by
  simp [Vector.getD, hx]

theorem getD_take_toList {α : Type} {n m j : Nat} (buf : Vector α n) (hj : j < m) (v : α) :
    (buf.toList.take m).getD j v = buf.getD j v := by
  simp [List.getD_eq_getElem?_getD, Vector.getD, hj]

/-! ## The checksum bits `UNPACK` extracts -/

/-- `CS` bits, zero-extended (R141, R145). -/
theorem unpackChecksum_toNat_lt (r : LengthRow) (I : List Index) : (unpackChecksum r I).toNat < 2 ^ r.cs := by
  rw [unpackChecksum, BitVec.toNat_setWidth]
  exact Nat.lt_of_le_of_lt (Nat.mod_le _ _) (BitVec.isLt _)

/-- Right-aligned: bit `CS - 1 - k` is bit `8L + k` of the stream (R125, R141). -/
theorem getLsbD_unpackChecksum {r : LengthRow} (hr : r ∈ lengthTable) (I : List Index) {k : Nat} (hk : k < r.cs) :
    (unpackChecksum r I).getLsbD (r.cs - 1 - k) = unpackStream I (8 * r.len + k) := by
  obtain ⟨-, -, -, hcs, -⟩ := lengthTable_bounds hr
  have hbit : r.cs - 1 - (r.cs - 1 - k) = k := by omega
  rw [unpackChecksum, BitVec.getLsbD_setWidth, bitField_getLsbD, hbit, decide_eq_true (by omega),
    decide_eq_true (by omega), Bool.true_and, Bool.true_and]

/-- A checksum bit of the stream is a bit of one of the row's `N` indices: the stream has no padding (R110). -/
theorem unpackStream_checksum {r : LengthRow} (hr : r ∈ lengthTable) (idx : Vector Index 24) {k : Nat}
    (hk : k < r.cs) : unpackStream (idx.toList.take r.words) (8 * r.len + k) =
      (idx.getD ((8 * r.len + k) / 11) 0#11).getLsbD (10 - (8 * r.len + k) % 11) := by
  obtain ⟨-, -, -, -, hbits⟩ := lengthTable_bounds hr
  rw [unpackStream, getD_take_toList idx (by omega)]

/-- `UNPACK` leaves the block unfaulted, and its checksum bits in `CSX` (R145). -/
theorem err_and_csx_of_exec_unpack {s t : State} (live : s.err = 0#4) {r : LengthRow} (hrow : lengthRow s.sel = some r)
    (hexec : exec .unpack s = .next t) :
    t.err = 0#4 ∧ t.csx = unpackChecksum r (s.idx.toList.take r.words) := by
  cases (exec_unpack_of_row live hrow).symm.trans hexec
  exact ⟨live, rfl⟩

theorem exec_rdc_of_live {s : State} (live : s.err = 0#4) :
    exec .rdc s = .next (respond (s.csx.setWidth 32) s) :=
  congrArg _ (whenLive_of_live live _)

/-! ## The six commands -/

/-- Settles O27: the guards raise, or one element of `ENT` is replaced. -/
theorem ldeWritesOneEntropyByte : Obligations.LdeWritesOneEntropyByte := by
  refine ⟨fun _ _ => rfl, fun s live => ⟨fun a d hd ha => ?_, fun a d hd ha => ?_, fun a d hd => ⟨?_, ?_⟩⟩⟩
  · exact ⟨_, exec_lde_of_lt live rfl (byteOperand_eq_some hd) ha, Vector.getElem?_setIfInBounds_self_of_lt ha,
      fun _ hj => Vector.getElem?_setIfInBounds_ne hj.symm, rfl⟩
  · exact congrArg _ (whenLive_withOperand_withAddress_of_le live (byteOperand_eq_some hd) ha _)
  · exact congrArg _ (whenLive_withOperand_of_none live (byteOperand_eq_none hd) _)
  · exact raisesIllegal_of_wide_byte live a (by decide) hd

/-- Settles O28: the guard raises, or the element of `ENT` is the response. -/
theorem rdeReadsOneEntropyByte : Obligations.RdeReadsOneEntropyByte := by
  refine ⟨fun a => BitVec.or_zero, fun s live => ⟨fun a ha => ?_, fun a ha => ?_, fun a d hd => ?_⟩⟩
  · exact ⟨_, getElem?_eq_some_getD s.ent ha 0#8, exec_rde_of_lt live rfl ha⟩
  · exact congrArg _ (whenLive_withAddress_of_le live ha _)
  · exact raisesIllegal_of_data live a (by decide) hd

/-- Settles O29: the guard raises, or the operand's byte replaces `HASH0`; nothing reads `SEL`. -/
theorem ldhWritesTheHashByte : Obligations.LdhWritesTheHashByte := by
  refine ⟨fun _ => rfl, fun s live => ⟨fun d hd => ?_, fun d hd => ?_, fun a d had => ?_⟩⟩
  · exact congrArg _ (whenLive_withOperand_of_some live (byteOperand_eq_some hd) _)
  · exact congrArg _ (whenLive_withOperand_of_none live (byteOperand_eq_none hd) _)
  · exact had.elim (raisesIllegal_of_address live (by decide) a d) (raisesIllegal_of_wide_byte live a (by decide))

/-- Settles O30: the guards raise, or one element of `IDX` is replaced. -/
theorem ldiWritesOneIndex : Obligations.LdiWritesOneIndex := by
  refine ⟨fun _ _ => rfl, fun s live => ⟨fun a d hd ha => ?_, fun a d hd ha => ?_, fun a d hd => ⟨?_, ?_⟩⟩⟩
  · exact ⟨_, exec_ldi_of_lt live rfl (indexOperand_eq_some hd) ha, Vector.getElem?_setIfInBounds_self_of_lt ha,
      fun _ hj => Vector.getElem?_setIfInBounds_ne hj.symm, rfl⟩
  · exact congrArg _ (whenLive_withOperand_withAddress_of_le live (indexOperand_eq_some hd) ha _)
  · exact congrArg _ (whenLive_withOperand_of_none live (indexOperand_eq_none hd) _)
  · exact raisesIllegal_of_wide_index live a hd

/-- Settles O31: the guard raises, or the element of `IDX` is the response. -/
theorem rdiReadsOneIndex : Obligations.RdiReadsOneIndex := by
  refine ⟨fun a => BitVec.or_zero, fun s live => ⟨fun a ha => ?_, fun a ha => ?_, fun a d hd => ?_⟩⟩
  · exact ⟨_, getElem?_eq_some_getD s.idx ha 0#11, exec_rdi_of_lt live rfl ha⟩
  · exact congrArg _ (whenLive_withAddress_of_le live ha _)
  · exact raisesIllegal_of_data live a (by decide) hd

/-- Settles O32: `RDC` answers `CSX`, which after `UNPACK` is `unpackChecksum`, whose bits are those of
`getLsbD_unpackChecksum`. -/
theorem rdcAnswersTheChecksumBits : Obligations.RdcAnswersTheChecksumBits := by
  refine ⟨rfl, fun s live => ⟨exec_rdc_of_live live,
    fun a d had => raisesIllegal_of_formatZ (by decide) a d had live, fun r t hrow hexec => ?_⟩⟩
  obtain ⟨live', hcsx⟩ := err_and_csx_of_exec_unpack live hrow hexec
  refine ⟨_, exec_rdc_of_live live', ?_, fun k hk => ?_⟩
  · rw [hcsx, BitVec.toNat_setWidth]
    exact Nat.lt_of_le_of_lt (Nat.mod_le _ _) (unpackChecksum_toNat_lt r _)
  · have hr := lengthRow_mem hrow
    obtain ⟨-, -, -, hcs, -⟩ := lengthTable_bounds hr
    rw [hcsx, BitVec.getLsbD_setWidth, decide_eq_true (by omega), Bool.true_and, getLsbD_unpackChecksum hr _ hk,
      unpackStream_checksum hr s.idx hk]

end Sys2Proof.Machine

/-! SUPPORT. The functions `pack` and `unpack` (43_pack_unpack.md R140 to R143) over their bit strings and over
integers, and the commands `PACK`, `UNPACK` and `CHK` (R144 to R146). -/

namespace Sys2Proof.Machine

/-! ## A bit string as a number -/

/-- The bits behind the first `m` stand in the low places. -/
theorem toNat_bitField_add (m n : Nat) (f : Nat → Bool) :
    (bitField (m + n) f).toNat = (bitField m f).toNat * 2 ^ n + (bitField n fun k => f (m + k)).toNat := by
  induction n with
  | zero => simp [bitField]
  | succ n ih =>
    rw [← Nat.add_assoc, bitField, bitField, BitVec.toNat_concat, BitVec.toNat_concat, ih]
    ring

/-- A string of `n` groups of `w` bits: the sum of the groups, each in its place. -/
theorem toNat_bitField_mul (w n : Nat) (f : Nat → Bool) : (bitField (w * n) f).toNat =
    ((List.range n).map fun j => (bitField w fun t => f (w * j + t)).toNat * 2 ^ (w * (n - 1 - j))).sum := by
  induction n with
  | zero => rfl
  | succ n ih =>
    have hplace : ∀ j ∈ List.range n, (bitField w fun t => f (w * j + t)).toNat * 2 ^ (w * (n + 1 - 1 - j)) =
        (bitField w fun t => f (w * j + t)).toNat * 2 ^ (w * (n - 1 - j)) * 2 ^ w := by
      intro j hj
      have hj := List.mem_range.mp hj
      rw [Nat.mul_assoc, ← Nat.pow_add, ← Nat.mul_succ, show n + 1 - 1 - j = (n - 1 - j).succ by omega]
    rw [Nat.mul_succ, toNat_bitField_add, ih, List.range_succ, List.map_append, List.sum_append,
      List.map_congr_left hplace, List.sum_map_mul_right]
    simp

/-- Bit by bit: the sum of R140 and R141. -/
theorem toNat_bitField (w : Nat) (f : Nat → Bool) :
    (bitField w f).toNat = ((List.range w).map fun t => (f t).toNat * 2 ^ (w - 1 - t)).sum := by
  have hgroups := toNat_bitField_mul 1 w f
  rw [Nat.one_mul] at hgroups
  simpa [bitField] using hgroups

/-- `w` bits of a string, from position `a`, cut out of its number by a shift and a mask. -/
theorem toNat_bitField_shiftRight_mod {m a w k : Nat} (f : Nat → Bool) (hm : m = a + w + k) :
    (bitField m f).toNat >>> k % 2 ^ w = (bitField w fun t => f (a + t)).toNat := by
  subst hm
  have hlow := (bitField k fun t => f (a + w + t)).isLt
  rw [toNat_bitField_add, Nat.shiftRight_eq_div_pow, Nat.mul_comm, Nat.mul_add_div (Nat.two_pow_pos k),
    Nat.div_eq_of_lt hlow, Nat.add_zero, toNat_bitField_add, Nat.mul_comm, Nat.mul_add_mod,
    Nat.mod_eq_of_lt (BitVec.isLt _)]

/-! ## The strings of `pack` and `unpack` -/

section
variable {r : LengthRow} (E : List Byte) (h : Byte) (I : List Index)

theorem packStream_entropy {p : Nat} (hp : p < 8 * r.len) :
    packStream r E h p = (E.getD (p / 8) 0#8).getLsbD (7 - p % 8) :=
  if_pos hp

theorem packStream_checksum (k : Nat) : packStream r E h (8 * r.len + k) = h.getLsbD (7 - k) := by
  simp [packStream]

theorem unpackStream_group (j : Nat) {t : Nat} (ht : t < 11) :
    unpackStream I (11 * j + t) = (I.getD j 0#11).getLsbD (10 - t) := by
  rw [unpackStream, Nat.mul_add_div (by decide), Nat.div_eq_of_lt ht, Nat.mul_add_mod, Nat.mod_eq_of_lt ht,
    Nat.add_zero]

theorem bitField_packStream_byte {i : Nat} (hi : i < r.len) :
    (bitField 8 fun u => packStream r E h (8 * i + u)) = E.getD i 0#8 := by
  refine (bitField_congr fun u hu => ?_).trans (bitField_of_bits _)
  rw [packStream_entropy E h (by omega), Nat.mul_add_div (by decide), Nat.div_eq_of_lt hu, Nat.mul_add_mod,
    Nat.mod_eq_of_lt hu, Nat.add_zero]

theorem bitField_unpackStream_index (j : Nat) : (bitField 11 fun t => unpackStream I (11 * j + t)) = I.getD j 0#11 :=
  (bitField_congr fun _ ht => unpackStream_group I j ht).trans (bitField_of_bits _)

theorem pack_getD {j : Nat} (hj : j < r.words) :
    (pack r E h).getD j 0#11 = bitField 11 fun t => packStream r E h (11 * j + t) := by
  rw [List.getD_eq_getElem?_getD, pack_getElem? r E h hj, Option.getD_some]

theorem unpackEntropy_getD {i : Nat} (hi : i < r.len) :
    (unpackEntropy r I).getD i 0#8 = bitField 8 fun u => unpackStream I (8 * i + u) := by
  rw [List.getD_eq_getElem?_getD, unpackEntropy_getElem? r I hi, Option.getD_some]

/-- The indices of `pack` carry its string (R143 a). -/
theorem unpackStream_pack {q : Nat} (hq : q < 11 * r.words) : unpackStream (pack r E h) q = packStream r E h q := by
  rw [unpackStream, pack_getD E h (by omega), bitField_getLsbD, decide_eq_true (by omega), Bool.true_and]
  congr 1
  omega

variable (hr : r ∈ lengthTable)
include hr

/-- The first `CS` bits of the hash byte as a number (R142). -/
theorem toNat_bitField_packStream_checksum :
    (bitField r.cs fun k => packStream r E h (8 * r.len + k)).toNat = h.toNat >>> (8 - r.cs) := by
  obtain ⟨-, -, -, hcs, -⟩ := lengthTable_bounds hr
  have hcut := toNat_bitField_shiftRight_mod (fun k => h.getLsbD (7 - k)) (show 8 = 0 + r.cs + (8 - r.cs) by omega)
  have hlt : h.toNat >>> (8 - r.cs) < 2 ^ r.cs := by
    rw [Nat.shiftRight_eq_div_pow]
    apply Nat.div_lt_of_lt_mul
    rw [← Nat.pow_add, Nat.sub_add_cancel hcs]
    exact h.isLt
  rw [bitField_of_bits h, Nat.mod_eq_of_lt hlt] at hcut
  simpa [packStream_checksum] using hcut.symm

theorem toNat_unpackChecksum :
    (unpackChecksum r I).toNat = (bitField r.cs fun k => unpackStream I (8 * r.len + k)).toNat := by
  obtain ⟨-, -, -, hcs, -⟩ := lengthTable_bounds hr
  rw [unpackChecksum, BitVec.toNat_setWidth_of_le hcs]

/-- The entropy `unpack` returns and a hash byte with its checksum carry the string of the indices (R143 b). -/
theorem packStream_unpack (hchecksum : hashBits r.cs h = unpackChecksum r I) {q : Nat} (hq : q < 11 * r.words) :
    packStream r (unpackEntropy r I) h q = unpackStream I q := by
  obtain ⟨-, -, -, hcs, hbits⟩ := lengthTable_bounds hr
  by_cases hlow : q < 8 * r.len
  · rw [packStream_entropy _ h hlow, unpackEntropy_getD I (by omega), bitField_getLsbD, decide_eq_true (by omega),
      Bool.true_and]
    congr 1
    omega
  · obtain ⟨k, rfl⟩ := Nat.exists_eq_add_of_le (Nat.not_lt.mp hlow)
    have hk : k < r.cs := by omega
    rw [packStream_checksum, getLsbD_of_hashBits r.cs h hk hcs, hchecksum, getLsbD_unpackChecksum hr I hk]

end

/-! ## The integer forms -/

theorem bigEndian_eq_sum (X : List Byte) :
    bigEndian X = ((List.range X.length).map fun i => (X.getD i 0#8).toNat * 2 ^ (8 * (X.length - 1 - i))).sum := by
  induction X with
  | nil => rfl
  | cons b X ih =>
    rw [bigEndian, ih, List.length_cons, List.range_succ_eq_map, List.map_cons, List.sum_cons, List.map_map,
      Nat.pow_mul 2 8]
    congr 2
    refine List.map_congr_left fun i _ => ?_
    rw [Function.comp_apply, List.getD_cons_succ, show X.length + 1 - 1 - i.succ = X.length - 1 - i by omega]

/-- The entropy's part of the string is the entropy as a big-endian integer. -/
theorem toNat_bitField_packStream_entropy {r : LengthRow} {E : List Byte} (h : Byte) (hE : E.length = r.len) :
    (bitField (8 * r.len) (packStream r E h)).toNat = bigEndian E := by
  rw [toNat_bitField_mul, bigEndian_eq_sum, hE]
  refine congrArg List.sum (List.map_congr_left fun i hi => ?_)
  rw [bitField_packStream_byte E h (List.mem_range.mp hi)]

section
variable {r : LengthRow} (hr : r ∈ lengthTable)
include hr

/-- The whole string of `pack` is `S` of R142. -/
theorem toNat_bitField_packStream {E : List Byte} (h : Byte) (hE : E.length = r.len) :
    (bitField (11 * r.words) (packStream r E h)).toNat = bigEndian E <<< r.cs ||| h.toNat >>> (8 - r.cs) := by
  obtain ⟨-, -, -, -, hbits⟩ := lengthTable_bounds hr
  rw [← hbits, toNat_bitField_add, toNat_bitField_packStream_entropy h hE,
    ← toNat_bitField_packStream_checksum E h hr, ← Nat.shiftLeft_eq, Nat.shiftLeft_add_eq_or_of_lt (BitVec.isLt _)]

theorem map_toNat_pack {E : List Byte} (h : Byte) (hE : E.length = r.len) : (pack r E h).map BitVec.toNat =
    (List.range r.words).map fun j =>
      ((bigEndian E <<< r.cs ||| h.toNat >>> (8 - r.cs)) >>> (11 * (r.words - 1 - j))) &&& 0x7FF := by
  rw [pack, List.map_map]
  refine List.map_congr_left fun j hj => ?_
  have hj := List.mem_range.mp hj
  rw [Function.comp_apply, ← toNat_bitField_packStream hr h hE, Nat.and_two_pow_sub_one_eq_mod _ 11]
  exact (toNat_bitField_shiftRight_mod _ (by omega)).symm

end

/-- The whole string of `unpack` is `S` of R142. -/
theorem toNat_bitField_unpackStream (n : Nat) (I : List Index) : (bitField (11 * n) (unpackStream I)).toNat =
    ((List.range n).map fun j => (I.getD j 0#11).toNat <<< (11 * (n - 1 - j))).sum := by
  rw [toNat_bitField_mul]
  refine congrArg List.sum (List.map_congr_left fun j _ => ?_)
  rw [bitField_unpackStream_index, Nat.shiftLeft_eq]

theorem map_toNat_unpackEntropy {r : LengthRow} (hr : r ∈ lengthTable) (I : List Index) :
    (unpackEntropy r I).map BitVec.toNat = (List.range r.len).map fun i =>
      (((bitField (11 * r.words) (unpackStream I)).toNat >>> r.cs) >>> (8 * (r.len - 1 - i))) &&& 0xFF := by
  obtain ⟨-, -, -, -, hbits⟩ := lengthTable_bounds hr
  rw [unpackEntropy, List.map_map]
  refine List.map_congr_left fun i hi => ?_
  have hi := List.mem_range.mp hi
  rw [Function.comp_apply, ← Nat.shiftRight_add, Nat.and_two_pow_sub_one_eq_mod _ 8]
  exact (toNat_bitField_shiftRight_mod _ (by omega)).symm

theorem toNat_unpackChecksum_eq_and {r : LengthRow} (hr : r ∈ lengthTable) (I : List Index) :
    (unpackChecksum r I).toNat = (bitField (11 * r.words) (unpackStream I)).toNat &&& (2 ^ r.cs - 1) := by
  obtain ⟨-, -, -, -, hbits⟩ := lengthTable_bounds hr
  rw [toNat_unpackChecksum I hr, Nat.and_two_pow_sub_one_eq_mod]
  exact (toNat_bitField_shiftRight_mod (k := 0) _ hbits.symm).symm

/-! ## The laws of the two functions -/

/-- Settles O50: an index is a field of `packStream`, which any string with the stated bits agrees with. -/
theorem packReadsBitsMostSignificantFirst : Obligations.PackReadsBitsMostSignificantFirst := by
  intro r E h hr _
  obtain ⟨-, -, -, -, hbits⟩ := lengthTable_bounds hr
  refine ⟨pack_length r E h, fun B hentropy hchecksum j hj => ?_⟩
  have hB : ∀ t < 11, packStream r E h (11 * j + t) = B (11 * j + t) := by
    intro t ht
    by_cases hlow : 11 * j + t < 8 * r.len
    · rw [packStream_entropy E h hlow, hentropy _ hlow]
    · obtain ⟨k, hk⟩ := Nat.exists_eq_add_of_le (Nat.not_lt.mp hlow)
      rw [hk, packStream_checksum, hchecksum k (by omega)]
  rw [pack_getD E h hj, bitField_congr hB, toNat_bitField]

/-- Settles O51: bytes and checksum are fields of `unpackStream`, which any string with the stated bits agrees with. -/
theorem unpackReadsBitsMostSignificantFirst : Obligations.UnpackReadsBitsMostSignificantFirst := by
  intro r I hr _
  obtain ⟨-, -, -, -, hbits⟩ := lengthTable_bounds hr
  refine ⟨unpackEntropy_length r I, fun B hindex => ?_⟩
  have hB : ∀ q < 11 * r.words, unpackStream I q = B q := by
    intro q hq
    have hqB := hindex (q / 11) (q % 11) (by omega) (by omega)
    rwa [Nat.div_add_mod, eq_comm] at hqB
  constructor
  · intro i hi
    rw [unpackEntropy_getD I hi, bitField_congr fun u _ => hB (8 * i + u) (by omega), toNat_bitField]
  · rw [toNat_unpackChecksum I hr, bitField_congr fun k _ => hB (8 * r.len + k) (by omega), toNat_bitField]

/-- Settles O52: `S` is the whole string as a number, and a shift and a mask cut its fields out. -/
theorem packAndUnpackEqualTheirIntegerForms : Obligations.PackAndUnpackEqualTheirIntegerForms := by
  refine fun r hr => ⟨fun E h hE => map_toNat_pack hr h hE, fun I S _ hS => ?_⟩
  rw [hS, ← toNat_bitField_unpackStream]
  exact ⟨map_toNat_unpackEntropy hr I, toNat_unpackChecksum_eq_and hr I⟩

/-- Settles O53: `unpack` reads the string that `pack` wrote. -/
theorem unpackOfPackIsTheEntropyAndChecksum : Obligations.UnpackOfPackIsTheEntropyAndChecksum := by
  intro r E h hr hE
  obtain ⟨-, -, -, -, hbits⟩ := lengthTable_bounds hr
  constructor
  · refine List.ext_getElem (by rw [unpackEntropy_length, hE]) fun i _ hi => ?_
    rw [hE] at hi
    rw [← List.getD_eq_getElem _ 0#8, ← List.getD_eq_getElem _ 0#8, unpackEntropy_getD _ hi,
      bitField_congr fun u _ => unpackStream_pack E h (q := 8 * i + u) (by omega), bitField_packStream_byte E h hi]
  · apply BitVec.eq_of_toNat_eq
    rw [toNat_unpackChecksum _ hr, bitField_congr fun k _ => unpackStream_pack E h (q := 8 * r.len + k) (by omega),
      toNat_bitField_packStream_checksum E h hr, BitVec.toNat_ushiftRight]

/-- Settles O54: `pack` reads the string of the indices that `unpack` split. -/
theorem packOfUnpackIsTheSentence : Obligations.PackOfUnpackIsTheSentence := by
  intro r I h hr hI hchecksum
  refine List.ext_getElem (by rw [pack_length, hI]) fun j _ hj => ?_
  rw [hI] at hj
  rw [← List.getD_eq_getElem _ 0#11, ← List.getD_eq_getElem _ 0#11, pack_getD _ h hj,
    bitField_congr fun t _ => packStream_unpack h I hr hchecksum (q := 11 * j + t) (by omega),
    bitField_unpackStream_index]

/-- Settles O55: only the string's last `CS` bits are the hash byte's, fewer than an index has; the last index is `S` of
R142 without a shift, masked. -/
theorem onlyTheLastIndexCarriesTheChecksum : Obligations.OnlyTheLastIndexCarriesTheChecksum := by
  intro r E h h' hr hE
  obtain ⟨-, -, hpos, hcs, hbits⟩ := lengthTable_bounds hr
  constructor
  · intro j hj
    rw [pack_getElem? r E h (by omega), pack_getElem? r E h' (by omega)]
    refine congrArg some (bitField_congr fun t ht => ?_)
    rw [packStream_entropy E h (by omega), packStream_entropy E h' (by omega)]
  · have hlast := toNat_bitField_shiftRight_mod (k := 0) (packStream r E h)
      (show 11 * r.words = 11 * (r.words - 1) + 11 + 0 by omega)
    have hbyte : h.toNat >>> (8 - r.cs) < 2 ^ 11 :=
      (Nat.shiftRight_le h.toNat _).trans_lt (h.isLt.trans (by decide))
    rw [pack_getD E h (by omega), ← hlast, toNat_bitField_packStream hr h hE, Nat.shiftRight_zero, Nat.or_mod_two_pow,
      Nat.mod_eq_of_lt hbyte, Nat.and_two_pow_sub_one_eq_mod, Nat.shiftLeft_eq, Nat.shiftLeft_eq,
      ← Nat.mul_mod_mul_right, ← Nat.pow_add, Nat.sub_add_cancel (by omega)]

/-! ## The three commands -/

/-- A sequence read back from the buffer it was stored in. -/
theorem take_toList_storeFirst {α : Type} {n m : Nat} (buf : Vector α n) {xs : List α} (hm : xs.length = m)
    (hn : m ≤ n) : (storeFirst buf xs).toList.take m = xs := by
  subst hm
  simp [storeFirst, List.take_of_length_le hn]

/-- Storing what the buffer holds changes nothing. -/
theorem storeFirst_take_toList {α : Type} {n : Nat} (buf : Vector α n) (m : Nat) :
    storeFirst buf (buf.toList.take m) = buf := by
  refine Vector.toList_inj.mp (List.ext_getElem? fun j => ?_)
  rw [Vector.getElem?_toList, Vector.getElem?_toList]
  obtain hlt | hge := Nat.lt_or_ge j (buf.toList.take m).length
  · rw [storeFirst_getElem?_lt _ _ hlt (by simp), List.getElem?_take_of_lt (hlt.trans_le (List.length_take_le _ _)),
      Vector.getElem?_toList]
  · exact storeFirst_getElem?_ge _ _ hge

theorem lengthRow_eq_some {k : BitVec 3} (hpos : 1 ≤ k.toNat) (hle : k.toNat ≤ 5) :
    lengthRow k = some ⟨12 + 4 * k.toNat, 3 + k.toNat, 9 + 3 * k.toNat⟩ := by
  revert k
  decide

theorem checksumMatches_eq_decide (r : LengthRow) (s : State) :
    checksumMatches r s = decide (s.csx.toNat = s.hash0.toNat >>> (8 - r.cs)) := by
  rw [Bool.eq_iff_iff, checksumMatches, beq_iff_eq, decide_eq_true_iff, ← BitVec.toNat_inj, hashBits,
    BitVec.toNat_ushiftRight]

section
variable {s : State} (live : s.err = 0#4)
include live

theorem whenLive_withLength_of_zero (hsel : s.sel = 0#3) (f : LengthRow → State) :
    whenLive s (withLength s f) = raise .noLength s := by
  rw [whenLive_of_live live, withLength, hsel]
  rfl

/-- `CHK` compares integers: the selected row has `CS = 3 + SEL` (R146). -/
theorem exec_chk_of_sel (hpos : 1 ≤ s.sel.toNat) (hle : s.sel.toNat ≤ 5) {b : Bool}
    (hb : decide (s.csx.toNat = s.hash0.toNat >>> (8 - (3 + s.sel.toNat))) = b) :
    exec .chk s = .next (respond (flagWord b) (s.setMatched b)) := by
  rw [exec_chk_of_row live (lengthRow_eq_some hpos hle), checksumMatches_eq_decide, hb]

variable {r : LengthRow} (hrow : lengthRow s.sel = some r)
include hrow

/-- `PACK` leaves its indices where `UNPACK` reads them, under the same row, and `ENT` and `HASH0` as they were. -/
theorem exec_pack_readBack : ∃ t, exec .pack s = .next t ∧ t.err = 0#4 ∧ t.sel = s.sel ∧ t.ent = s.ent ∧
    t.hash0 = s.hash0 ∧ t.idx.toList.take r.words = pack r (s.ent.toList.take r.len) s.hash0 := by
  obtain ⟨-, hwords, -⟩ := lengthTable_bounds (lengthRow_mem hrow)
  exact ⟨_, exec_pack_of_row live hrow, live, rfl, rfl, rfl, take_toList_storeFirst _ (pack_length r _ _) hwords⟩

theorem exec_chk_of_hashBits (hcsx : s.csx = hashBits r.cs s.hash0) :
    exec .chk s = .next (respond 1#32 (s.setMatched true)) := by
  have hmatches : checksumMatches r s = true := beq_iff_eq.mpr hcsx
  rw [exec_chk_of_row live hrow, hmatches]
  rfl

end

/-- Settles O33: what is stored is `pack` of the selected row, and the buffer keeps the rest. -/
theorem packWritesTheIndices : Obligations.PackWritesTheIndices := by
  refine ⟨rfl, fun s live => ⟨fun r hrow => ?_, fun hsel => congrArg _ (whenLive_withLength_of_zero live hsel _),
    fun a d had => raisesIllegal_of_formatZ (by decide) a d had live⟩⟩
  obtain ⟨-, hwords, -⟩ := lengthTable_bounds (lengthRow_mem hrow)
  have hlength := pack_length r (s.ent.toList.take r.len) s.hash0
  rw [← hlength] at hwords
  refine ⟨_, exec_pack_of_row live hrow, fun j hj => ?_, fun j hj => ?_, rfl⟩
  · exact storeFirst_getElem?_lt _ _ (by rwa [hlength]) hwords
  · exact storeFirst_getElem?_ge _ _ (by rwa [hlength])

/-- Settles O34: what is stored is `unpack` of the selected row, and the buffer keeps the rest. -/
theorem unpackWritesEntropyAndChecksum : Obligations.UnpackWritesEntropyAndChecksum := by
  refine ⟨rfl, fun s live => ⟨fun r hrow => ?_, fun hsel => congrArg _ (whenLive_withLength_of_zero live hsel _),
    fun a d had => raisesIllegal_of_formatZ (by decide) a d had live⟩⟩
  obtain ⟨hlen, -⟩ := lengthTable_bounds (lengthRow_mem hrow)
  have hlength := unpackEntropy_length r (s.idx.toList.take r.words)
  rw [← hlength] at hlen
  refine ⟨_, exec_unpack_of_row live hrow, fun j hj => ?_, fun j hj => ?_, rfl, unpackChecksum_toNat_lt r _, rfl⟩
  · exact storeFirst_getElem?_lt _ _ (by rwa [hlength]) hlen
  · exact storeFirst_getElem?_ge _ _ (by rwa [hlength])

/-- Settles O35: `exec_chk_of_sel` with the comparison true and with it false. -/
theorem chkComparesTheChecksumBits : Obligations.ChkComparesTheChecksumBits :=
  ⟨rfl, fun _ live => ⟨fun hpos hle heq => exec_chk_of_sel live hpos hle (decide_eq_true heq),
    fun hpos hle hne => exec_chk_of_sel live hpos hle (decide_eq_false hne),
    fun hsel => congrArg _ (whenLive_withLength_of_zero live hsel _),
    fun a d had => raisesIllegal_of_formatZ (by decide) a d had live⟩⟩

/-- Settles O56: `UNPACK` reads back the indices `PACK` stored, so by O53 it stores the entropy that was there and the
checksum that `CHK` compares with. -/
theorem packUnpackChkRoundTrip : Obligations.PackUnpackChkRoundTrip := by
  intro s r live hrow
  have hr := lengthRow_mem hrow
  obtain ⟨hlen, -⟩ := lengthTable_bounds hr
  obtain ⟨hentropy, hchecksum⟩ :=
    unpackOfPackIsTheEntropyAndChecksum r (s.ent.toList.take r.len) s.hash0 hr (by simpa using hlen)
  obtain ⟨t, hpack, live', hsel, hent, hhash, hidx⟩ := exec_pack_readBack live hrow
  have hrow' : lengthRow t.sel = some r := hsel ▸ hrow
  have hunpack := exec_unpack_of_row live' hrow'
  rw [hidx, hentropy, hchecksum, hent, storeFirst_take_toList] at hunpack
  refine ⟨t, _, _, hpack, hunpack, exec_chk_of_hashBits (by exact live') (by exact hrow') ?_, rfl, rfl, rfl, rfl⟩
  rw [← hhash]
  rfl

end Sys2Proof.Machine

/-! SUPPORT. The KDF orchestrator (44_kdf_orchestrator.md R160 to R166): the commands `KSETP`, `KSETS`, `KLDP`, `KLDS`,
`KRUN` and `KRDS`, and the rounds of `kdf`. -/

namespace Sys2Proof.Machine

/-! ## The guards of the KO's commands -/

section
variable {s : State} (live : s.err = 0#4) {f : KoState → State}
include live

/-- What a KO command does whatever the KO's fields hold. -/
theorem whenKo_of_hasKo (hko : s.hasKo = true) {t : State} (hf : ∀ k, f k = t) : whenKo s f = t := by
  obtain ⟨k, hk⟩ := Option.isSome_iff_exists.mp hko
  rw [whenKo_of_live live hk, hf]

/-- A KO command is illegal without the KO, and with it where its own checks say so (R83, R86). -/
theorem whenKo_of_illegal (hf : s.ko = none ∨ ∀ k, f k = raise .illegalCommand s) :
    whenKo s f = raise .illegalCommand s := by
  cases hk : s.ko with
  | none => exact whenKo_of_absent live hk f
  | some k =>
    rw [whenKo_of_live live hk]
    exact hf.resolve_left (by simp [hk]) k

/-- A word with the opcode of a KO command is no command in a block without the KO (R86). -/
theorem raisesIllegal_of_ko_absent (hk : s.ko = none) {op : BitVec 8} (hop : 0x20 ≤ op.toNat ∧ op.toNat ≤ 0x25)
    (a d : Field) : RaisesIllegal s (commandWord op a d) := by
  obtain ⟨hge, hle⟩ := hop
  rw [← opField_commandWord op a d] at hge hle
  exact koOpcodesAreIllegalWithoutKo s _ live hk hge hle

/-- `KSETP` and `KSETS` check the range of the length whatever the KO's fields hold. -/
theorem whenKo_length_of_lt (hko : s.hasKo = true) {n : Nat} {d : Field} (hd : n < d.toNat) :
    whenKo s (fun k => if n < lengthOperand d then raise .kLengthRange s else f k) = raise .kLengthRange s :=
  whenKo_of_hasKo live hko fun _ => if_pos hd

variable {g : KoState → Byte → Nat → State} {a d : Field} {n : Nat}

/-- `KLDP` and `KLDS` check the address whatever the KO's fields hold. -/
theorem whenKo_load_of_le (hko : s.hasKo = true) (hd : d.extractLsb' 8 4 = 0#4) (ha : n ≤ a.toNat) :
    whenKo s (fun k => withOperand (byteOperand d) s fun b => withAddress a n s (g k b)) = raise .badAddress s :=
  whenKo_of_hasKo live hko fun k => by rw [byteOperand_eq_some hd, withOperand, withAddress_of_le ha]

/-- `KLDP` and `KLDS` check the operand before the address (R202). -/
theorem whenKo_load_of_illegal (hkd : s.ko = none ∨ d.extractLsb' 8 4 ≠ 0#4) :
    whenKo s (fun k => withOperand (byteOperand d) s fun b => withAddress a n s (g k b)) = raise .illegalCommand s :=
  whenKo_of_illegal live (hkd.imp_right fun hd k => by rw [byteOperand_eq_none hd, withOperand])

end

/-! ## The rounds of `kdf` -/

section
variable (prf : List Byte → List Byte → Block) (P S : List Byte)

/-- `U` after round `n + 1` (R164). -/
theorem kdfRounds_fst (n : Nat) : (kdfRounds prf P S n).1 = prfOutput prf P S n := by
  induction n with
  | zero => rfl
  | succ n ih => rw [kdfRounds, prfOutput, ih]

theorem xorBlocks_getD (x y : Block) (k : Nat) (hk : k < 64) :
    (xorBlocks x y).getD k 0#8 = x.getD k 0#8 ^^^ y.getD k 0#8 := by
  simp [xorBlocks, Vector.getD, hk]

/-- `T` after round `n + 1` (R164), byte by byte. -/
theorem kdfRounds_snd_getD (n k : Nat) (hk : k < 64) : (kdfRounds prf P S n).2.getD k 0#8 =
    (List.range (n + 1)).foldl (fun x i => x ^^^ (prfOutput prf P S i).getD k 0#8) 0#8 := by
  induction n with
  | zero => exact BitVec.zero_xor.symm
  | succ n ih =>
    rw [kdfRounds, xorBlocks_getD _ _ k hk, ih, kdfRounds_fst, List.range_succ (n := n + 1), List.foldl_append]
    rfl

end

/-- Settles O57: `T` after the last of the 2048 rounds, by induction over the rounds (`kdfRounds_snd_getD`). -/
theorem kdfIsTheExclusiveOrOfAllOutputs : Obligations.KdfIsTheExclusiveOrOfAllOutputs := by
  intro prf P S k hk
  rw [getElem?_eq_some_getD _ hk 0#8, kdf, kdfRounds_snd_getD _ _ _ _ k hk,
    show Config.krounds - 1 + 1 = 2048 from rfl]

/-! ## The six commands -/

/-- Settles O36: the guards raise, or `PWLEN` is replaced and the seed withdrawn. -/
theorem ksetpSetsThePasswordLength : Obligations.KsetpSetsThePasswordLength :=
  ⟨fun _ => rfl, fun _ live =>
    ⟨fun _ _ hk hd => exec_ksetp_of_le live hk hd,
      fun _ hko hd => congrArg _ (whenKo_length_of_lt live hko hd),
      fun _ hk => exec_of_isKo_of_absent live rfl hk,
      raisesIllegal_of_address live (by decide)⟩⟩

/-- Settles O37: the guards raise, or `SALTLEN` is replaced and the seed withdrawn. -/
theorem ksetsSetsTheSaltLength : Obligations.KsetsSetsTheSaltLength :=
  ⟨fun _ => rfl, fun _ live =>
    ⟨fun _ _ hk hd => exec_ksets_of_le live hk hd,
      fun _ hko hd => congrArg _ (whenKo_length_of_lt live hko hd),
      fun _ hk => exec_of_isKo_of_absent live rfl hk,
      raisesIllegal_of_address live (by decide)⟩⟩

/-- Settles O38: the guards raise, or one byte of `PW` is replaced and the seed withdrawn. -/
theorem kldpWritesOnePasswordByte : Obligations.KldpWritesOnePasswordByte := by
  refine ⟨fun _ _ => rfl, fun s live =>
    ⟨fun a d k hk hwf hd ha => ?_, fun a d hko hd ha => ?_, fun a d hkd => ⟨?_, ?_⟩⟩⟩
  · exact ⟨_, exec_kldp_of_lt live hk rfl (byteOperand_eq_some hd) ha, Memory.read_write_same hwf _ _,
      fun _ hx => Memory.read_write_other _ _ hx⟩
  · exact congrArg _ (whenKo_load_of_le live hko hd ha)
  · exact congrArg _ (whenKo_load_of_illegal live hkd)
  · exact hkd.elim (raisesIllegal_of_ko_absent live · (by decide) a d) (raisesIllegal_of_wide_byte live a (by decide))

/-- Settles O39: the guards raise, or one byte of `SALT` is replaced and the seed withdrawn. -/
theorem kldsWritesOneSaltByte : Obligations.KldsWritesOneSaltByte := by
  refine ⟨fun _ _ => rfl, fun s live =>
    ⟨fun a d k hk hwf hd ha => ?_, fun a d hko hd ha => ?_, fun a d hkd => ⟨?_, ?_⟩⟩⟩
  · exact ⟨_, exec_klds_of_lt live hk rfl (byteOperand_eq_some hd) ha, Memory.read_write_same hwf _ _,
      fun _ hx => Memory.read_write_other _ _ hx⟩
  · exact congrArg _ (whenKo_load_of_le live hko hd ha)
  · exact congrArg _ (whenKo_load_of_illegal live hkd)
  · exact hkd.elim (raisesIllegal_of_ko_absent live · (by decide) a d) (raisesIllegal_of_wide_byte live a (by decide))

/-- Settles O40: without the KO it is illegal, and with it `derivedSeed` is stored. -/
theorem krunDerivesTheSeed : Obligations.KrunDerivesTheSeed :=
  ⟨rfl, fun _ live =>
    ⟨fun _ hk => exec_krun_of_ko live hk, fun hk => exec_of_isKo_of_absent live rfl hk,
      fun a d had => raisesIllegal_of_formatZ (by decide) a d had live⟩⟩

/-- Settles O41: the guards raise, the address before `KDONE`, or one byte of `SEED` is the response. -/
theorem krdsReadsOneSeedByte : Obligations.KrdsReadsOneSeedByte := by
  refine ⟨fun _ => BitVec.or_zero, fun s live => ⟨fun a k hk ha hdone => ?_, fun a hko ha => ?_,
    fun a k hk ha hdone => ?_, fun a hk => exec_of_isKo_of_absent live rfl hk,
    fun a d hd => raisesIllegal_of_data live a (by decide) hd⟩⟩
  · exact ⟨_, getElem?_eq_some_getD k.seed ha 0#8, exec_krds_of_lt live hk rfl ha hdone⟩
  · exact congrArg _ (whenKo_of_hasKo live hko fun _ => withAddress_of_le ha s _)
  · rw [exec, execKrds, whenKo_of_live live hk, withAddress_of_lt rfl ha, hdone]
    rfl

/-! ## The seed a `KRDS` answers -/

/-- Of the cases of O41 only one leaves the block unfaulted: `KRDS` read a byte of `SEED` while `KDONE` was 1. -/
theorem kdone_and_output_of_exec_krds {a : Field} {s t : State} (live : s.err = 0#4)
    (hexec : exec (.krds a) s = .next t) (live' : t.err = 0#4) : ∃ k x, s.ko = some k ∧ k.kdone = true ∧
      k.seed[a.toNat]? = some x ∧ t.output = x.setWidth 32 :: s.output := by
  obtain ⟨-, hkrds⟩ := krdsReadsOneSeedByte
  obtain ⟨hread, hbadAddress, hnotDone, habsent, -⟩ := hkrds s live
  have not_faulted {code : BitVec 4} (hcode : code ≠ 0#4) : exec (.krds a) s ≠ .next (s.afterFault code) := by
    intro hfault
    cases hexec.symm.trans hfault
    exact hcode live'
  cases hk : s.ko with
  | none => exact absurd (habsent a hk) (not_faulted (by decide))
  | some k =>
    obtain ha | ha := Nat.lt_or_ge a.toNat 64
    · cases hdone : k.kdone with
      | false => exact absurd (hnotDone a k hk ha hdone) (not_faulted (by decide))
      | true =>
        obtain ⟨x, hx, hanswer⟩ := hread a k hk ha hdone
        cases hexec.symm.trans hanswer
        exact ⟨k, x, rfl, hdone, hx, rfl⟩
    · exact absurd (hbadAddress a (Option.isSome_of_eq_some hk) ha) (not_faulted (by decide))

/-- Settles O47: a `KRDS` that does not fault found `KDONE` 1, and then the invariant says that `SEED` is derived. -/
theorem successfulKrdsReturnsTheCurrentSeed : Obligations.SuccessfulKrdsReturnsTheCurrentSeed := by
  intro a s t hs live hexec live'
  obtain ⟨k, x, hk, hdone, hx, houtput⟩ := kdone_and_output_of_exec_krds live hexec live'
  rw [(hs.ko_inv k hk).seed_derived hdone, derivedSeed] at hx
  exact ⟨k, x, hk, hx, houtput⟩

end Sys2Proof.Machine

/-! SUPPORT. The command port (50_interfaces.md R180, R181, R189): how a command is answered, said once (Answered), and
that a step on a command word is a function of the block's state, the word and the sizes. -/

namespace Sys2Proof.Machine

/-! ## How a command is answered -/

/-- What a command other than `RDS` may do to `s`, by its response (R181): case (a), it is ignored or faults, with the
response 0x80000000; case (b), it completes with bit 31 clear and leaves the block not faulted. -/
inductive Answered (s : State) : State → Prop where
  | ignored (faulted : s.err ≠ 0#4) : Answered s (ignored s)
  | raised (c : Cause) (live : s.err = 0#4) : Answered s (raise c s)
  | completed {t : State} {v : Word} (live : t.err = 0#4) (output : t.output = s.output)
    (bit31 : v.getLsbD 31 = false) : Answered s (respond v t)

section
variable {s : State}

theorem Answered.of_whenLive {t : State} (ht : s.err = 0#4 → Answered s t) : Answered s (whenLive s t) := by
  obtain ⟨faulted, h⟩ | ⟨live, h⟩ := whenLive_cases s t <;> rw [h]
  · exact .ignored faulted
  · exact ht live

theorem Answered.of_whenKo {f : KoState → State} (hf : s.err = 0#4 → ∀ k, Answered s (f k)) :
    Answered s (whenKo s f) := by
  obtain ⟨faulted, h⟩ | ⟨live, -, h⟩ | ⟨k, live, -, h⟩ := whenKo_cases s f <;> rw [h]
  · exact .ignored faulted
  · exact .raised _ live
  · exact hf live k

theorem Answered.of_ite {p : Prop} [Decidable p] {t u : State} (ht : Answered s t) (hu : Answered s u) :
    Answered s (if p then t else u) := by
  split
  · exact ht
  · exact hu

variable (live : s.err = 0#4)
include live

theorem Answered.of_withOperand {α : Type} {o : Option α} {f : α → State} (hf : ∀ v, Answered s (f v)) :
    Answered s (withOperand o s f) := by
  obtain h | ⟨v, -, h⟩ := withOperand_cases o s f <;> rw [h]
  · exact .raised _ live
  · exact hf v

theorem Answered.of_withAddress {a : Field} {n : Nat} {f : Nat → State} (hf : ∀ x, Answered s (f x)) :
    Answered s (withAddress a n s f) :=
  .of_ite (hf _) (.raised _ live)

theorem Answered.of_withLength {f : LengthRow → State} (hf : ∀ r, Answered s (f r)) : Answered s (withLength s f) := by
  obtain h | ⟨r, -, h⟩ := withLength_cases s f <;> rw [h]
  · exact .raised _ live
  · exact hf r

theorem Answered.of_selectRow {row : Option (BitVec 3)} {c : Cause} : Answered s (selectRow row c s) := by
  obtain h | ⟨v, -, h⟩ := selectRow_cases row c s <;> rw [h]
  · exact .raised _ live
  · exact .completed live rfl rfl

end

theorem answered_illegalWord (s : State) : Answered s (illegalWord s) := .of_whenLive fun live => .raised _ live

/-- A write answers 0, and a read answers a byte, an index or a flag. -/
theorem exec_answered {i : Instr} {s t : State} (hi : i ≠ .rds) (h : exec i s = .next t) : Answered s t := by
  have write {u : State} (live : u.err = 0#4) (output : u.output = s.output) : Answered s (respond 0#32 u) :=
    .completed live output rfl
  have read {w : Nat} (x : BitVec w) (hw : w ≤ 31) (live : s.err = 0#4) : Answered s (respond (x.setWidth 32) s) :=
    .completed live rfl (by rw [BitVec.getLsbD_setWidth, BitVec.getLsbD_of_ge x 31 hw, Bool.and_false])
  cases i <;> cases h
  case nop => exact .of_whenLive fun live => write live rfl
  case clr => exact write rfl rfl
  case rds => exact absurd rfl hi
  case setlen d => exact .of_whenLive fun live => .of_selectRow live
  case setwc d => exact .of_whenLive fun live => .of_selectRow live
  case lde a d =>
    exact .of_whenLive fun live => .of_withOperand live fun _ => .of_withAddress live fun _ => write live rfl
  case rde a => exact .of_whenLive fun live => .of_withAddress live fun _ => read _ (by decide) live
  case ldh d => exact .of_whenLive fun live => .of_withOperand live fun _ => write live rfl
  case ldi a d =>
    exact .of_whenLive fun live => .of_withOperand live fun _ => .of_withAddress live fun _ => write live rfl
  case rdi a => exact .of_whenLive fun live => .of_withAddress live fun _ => read _ (by decide) live
  case rdc => exact .of_whenLive (read _ (by decide))
  case pack => exact .of_whenLive fun live => .of_withLength live fun _ => write live rfl
  case unpack => exact .of_whenLive fun live => .of_withLength live fun _ => write live rfl
  case chk =>
    exact .of_whenLive fun live => .of_withLength live fun _ => .completed live rfl (getLsbD_flagWord _ 31)
  case ksetp d => exact .of_whenKo fun live _ => .of_ite (.raised _ live) (write live rfl)
  case ksets d => exact .of_whenKo fun live _ => .of_ite (.raised _ live) (write live rfl)
  case kldp a d =>
    exact .of_whenKo fun live _ => .of_withOperand live fun _ => .of_withAddress live fun _ => write live rfl
  case klds a d =>
    exact .of_whenKo fun live _ => .of_withOperand live fun _ => .of_withAddress live fun _ => write live rfl
  case krun => exact .of_whenKo fun live _ => write live rfl
  case krds a =>
    exact .of_whenKo fun live _ => .of_withAddress live fun _ =>
      .of_ite (read _ (by decide) live) (.raised _ live)

/-- Bit 31 tells case (a) of R181 from case (b), and in case (a) it is the only bit set. -/
theorem Answered.response {s t : State} (h : Answered s t) : ∃ v, t.output = v :: s.output ∧
    (v.getLsbD 31 = true ↔ t.err ≠ 0#4) ∧ (v.getLsbD 31 = true → v = faultResponse) := by
  have bit31 : faultResponse.getLsbD 31 = true := by decide
  cases h with
  | ignored faulted => exact ⟨_, rfl, iff_of_true bit31 faulted, fun _ => rfl⟩
  | raised c live => exact ⟨_, rfl, iff_of_true bit31 (causeCode_ne_zero c), fun _ => rfl⟩
  | @completed t v live output bit31 =>
    have clear : ¬ v.getLsbD 31 = true := Bool.eq_false_iff.mp bit31
    exact ⟨v, congrArg (v :: ·) output, iff_of_false clear (not_not_intro live), (absurd · clear)⟩

/-! ## A step on a command word -/

theorem step_of_rds {s : State} {rest : List PortEvent} (hin : s.input = .command 0x02000000#32 :: rest) :
    step s = .next (respond (statusWord s) (s.setInput rest)) :=
  step_of_command hin rfl

/-- A word other than that of `RDS` is illegal or another command, since no two words decode to one command. -/
theorem step_answered {s : State} {cw : Word} {rest : List PortEvent} (hin : s.input = .command cw :: rest)
    (hcw : cw ≠ 0x02000000#32) : ∃ t, step s = .next t ∧ Answered (s.setInput rest) t := by
  cases hd : decode cw with
  | command i =>
    have hi : i ≠ .rds := by
      rintro rfl
      exact hcw (wellFormed_and_encode_of_decode hd).2.symm
    obtain ⟨t, ht⟩ := exec_answers_next i (s.setInput rest)
    exact ⟨t, (step_of_command hin hd).trans ht, exec_answered hi ht⟩
  | illegal why => exact ⟨_, step_of_illegal hin hd, answered_illegalWord _⟩

theorem step_command_response {s : State} {cw : Word} {rest : List PortEvent} (hin : s.input = .command cw :: rest) :
    ∃ t v, step s = .next t ∧ t.output = v :: s.output ∧
      (v.getLsbD 31 = true ↔ (t.err ≠ 0#4 ∧ cw ≠ 0x02000000#32)) ∧ (v.getLsbD 31 = true → v = 0x80000000#32) := by
  by_cases hcw : cw = 0x02000000#32
  · subst hcw
    have clear : ¬ (statusWord s).getLsbD 31 = true := Bool.eq_false_iff.mp (getLsbD_statusWord_reserved s (by decide))
    exact ⟨_, statusWord s, step_of_rds hin, rfl, iff_of_false clear fun h => h.2 rfl, (absurd · clear)⟩
  · obtain ⟨t, hstep, hanswered⟩ := step_answered hin hcw
    obtain ⟨v, houtput, hiff, hfault⟩ := hanswered.response
    exact ⟨t, v, hstep, houtput, hiff.trans (and_iff_left hcw).symm, hfault⟩

/-- "Given a state and a command word, the next state and a response" (R189): `c` and `v` depend neither on what the
host presents next nor on the earlier responses. -/
theorem step_command_amid (z : BufferSizes) (b : BlockState) (cw : Word) : ∃ c v, ∀ rest out,
    step { toBlockState := b, sizes := z, input := .command cw :: rest, output := out } =
      .next { toBlockState := c, sizes := z, input := rest, output := v :: out } := by
  obtain ⟨i, ⟨c, z', es, ws⟩, hstep, heffect⟩ :=
    step_command_effect (s := { toBlockState := b, sizes := z, input := [.command cw], output := [] }) rfl
  obtain ⟨v, hv⟩ := heffect.output_eq
  cases heffect.sizes_eq
  cases hv
  exact ⟨c, v, step_amid rfl hstep⟩

/-- Settles O14: a word that is not that of `RDS` is refused or completes (`Answered`), `STATUS` has bit 31 clear, and a
step with nothing else presented and nothing answered yet determines every step on the same block, word and sizes
(`step_command_amid`). -/
theorem everyCommandReturnsOneResponse : Obligations.EveryCommandReturnsOneResponse := by
  constructor
  · intro s cw rest hin
    obtain ⟨t, v, hstep, houtput, hbit31, hfault⟩ := step_command_response hin
    obtain ⟨i, u, hu, heffect⟩ := step_command_effect hin
    cases hstep.symm.trans hu
    exact ⟨t, v, hstep, heffect.input_eq, houtput, hbit31, hfault⟩
  · rintro ⟨b, z, _, out⟩ ⟨_, _, _, out'⟩ cw rest rest' rfl rfl rfl rfl
    obtain ⟨c, v, hstep⟩ := step_command_amid z b cw
    exact ⟨_, _, v, hstep rest out, hstep rest' out', rfl, rfl, rfl⟩

end Sys2Proof.Machine

/-! SUPPORT. Faults (60_exceptions.md R200 to R206): what a faulted block does with the next event, and the checks of
each command in the order of R202 (`faultChecks`), which decide whether a command of a block that is not faulted
completes or raises, and which cause. -/

namespace Sys2Proof.Machine

/-! ## The faulted block -/

section
variable {s : State} (faulted : s.err ≠ 0#4)
include faulted

theorem exec_of_faulted {i : Instr} (hrds : i ≠ .rds) (hclr : i ≠ .clr) : exec i s = .next (ignored s) := by
  cases i with
  | rds => exact absurd rfl hrds
  | clr => exact absurd rfl hclr
  | nop | setlen | setwc | lde | rde | ldh | ldi | rdi | rdc | pack | unpack | chk | ksetp | ksets | kldp | klds | krun
  | krds => exact congrArg _ (whenLive_of_faulted faulted _)

theorem err_of_exec_of_faulted {i : Instr} {t : State} (h : exec i s = .next t) :
    t.err = if i = .clr then 0#4 else s.err := by
  split
  · next hclr =>
    subst hclr
    cases h
    rfl
  · next hclr => exact ((exec_effect h).columns hclr).err.resolve_right faulted

/-- A word other than those of `RDS` and `CLR` is illegal or another command, since no two words decode to one command
(R204). -/
theorem step_of_faulted {cw : Word} {rest : List PortEvent} (hin : s.input = .command cw :: rest)
    (hrds : cw ≠ 0x02000000#32) (hclr : cw ≠ 0x01000000#32) : step s = .next (ignored (s.setInput rest)) := by
  cases hd : decode cw with
  | command i =>
    obtain ⟨-, rfl⟩ := wellFormed_and_encode_of_decode hd
    exact (step_of_command hin hd).trans
      (exec_of_faulted (s := s.setInput rest) faulted (mt (congrArg encode) hrds) (mt (congrArg encode) hclr))
  | illegal why =>
    exact (step_of_illegal hin hd).trans (congrArg _ (whenLive_of_faulted (s := s.setInput rest) faulted _))

end

theorem step_of_clr {s : State} {rest : List PortEvent} (hin : s.input = .command 0x01000000#32 :: rest) :
    step s = .next (clearAndRespond (s.setInput rest)) :=
  step_of_command hin rfl

/-- Settles O16: two words decode to the commands that do not look at `ERR`, every other is ignored
(`step_of_faulted`). -/
theorem faultedBlockPerformsOnlyRdsAndClr : Obligations.FaultedBlockPerformsOnlyRdsAndClr := fun s faulted =>
  ⟨fun cw hrds hclr => step_of_faulted (s := s.withCommand cw) faulted rfl hrds hclr, step_of_rds rfl, step_of_clr rfl⟩

/-- Settles O17: by what the host does next: nothing, the reset input, or a word, which is `RDS`, `CLR` or ignored. -/
theorem firstCauseIsKeptUntilClear : Obligations.FirstCauseIsKeptUntilClear := by
  intro s t faulted hstep
  cases hin : s.input with
  | nil =>
    cases (step_of_idle hin).symm.trans hstep
    exact .inl rfl
  | cons e rest =>
    cases e with
    | reset =>
      cases (step_of_reset hin).symm.trans hstep
      exact .inr ⟨rfl, .inl rfl⟩
    | command cw =>
      by_cases hrds : cw = 0x02000000#32
      · subst hrds
        cases (step_of_rds hin).symm.trans hstep
        exact .inl rfl
      by_cases hclr : cw = 0x01000000#32
      · subst hclr
        cases (step_of_clr hin).symm.trans hstep
        exact .inr ⟨rfl, .inr rfl⟩
      · cases (step_of_faulted faulted hin hrds hclr).symm.trans hstep
        exact .inl rfl

/-! ## The checks of a command -/

/-- What a command checks, in the order of R202, each check with the cause it raises when it fails (R201). The checks
see the sizes, `SEL` and, where the block has the KO, `KDONE`, and nothing else of the block. -/
def faultChecks (z : BufferSizes) (sel : BitVec 3) (kdone : Option Bool) : Instr → List (Bool × Cause)
  | .nop | .clr | .rds | .rdc => []
  | .setlen d => [((selOfLength d).isSome, .invalidLength)]
  | .setwc d => [((selOfWordCount d).isSome, .invalidWordCount)]
  | .lde a d => [((byteOperand d).isSome, .illegalCommand), (a.toNat < 32, .badAddress)]
  | .rde a => [(a.toNat < 32, .badAddress)]
  | .ldh d => [((byteOperand d).isSome, .illegalCommand)]
  | .ldi a d => [((indexOperand d).isSome, .illegalCommand), (a.toNat < 24, .badAddress)]
  | .rdi a => [(a.toNat < 24, .badAddress)]
  | .pack | .unpack | .chk => [((lengthRow sel).isSome, .noLength)]
  | .ksetp d => [(kdone.isSome, .illegalCommand), (d.toNat ≤ z.pwMax, .kLengthRange)]
  | .ksets d => [(kdone.isSome, .illegalCommand), (d.toNat ≤ z.saltMax, .kLengthRange)]
  | .kldp a d =>
    [(kdone.isSome, .illegalCommand), ((byteOperand d).isSome, .illegalCommand), (a.toNat < z.pwMax, .badAddress)]
  | .klds a d =>
    [(kdone.isSome, .illegalCommand), ((byteOperand d).isSome, .illegalCommand), (a.toNat < z.saltMax, .badAddress)]
  | .krun => [(kdone.isSome, .illegalCommand)]
  | .krds a => [(kdone.isSome, .illegalCommand), (a.toNat < 64, .badAddress), (kdone.any id, .kNotDone)]

/-- The checks of a command in the state `s`. -/
abbrev State.checks (s : State) (i : Instr) : List (Bool × Cause) :=
  faultChecks s.sizes s.sel (s.ko.map (·.kdone)) i

/-- `s` goes to `t` under these checks: the first that fails raises its cause, and where none fails the block is not
faulted afterwards. -/
inductive Checked (s : State) : List (Bool × Cause) → State → Prop where
  | completed {t : State} (live : t.err = 0#4) : Checked s [] t
  | passed {c : Cause} {cs : List (Bool × Cause)} {t : State} (rest : Checked s cs t) : Checked s ((true, c) :: cs) t
  | failed {c : Cause} {cs : List (Bool × Cause)} : Checked s ((false, c) :: cs) (raise c s)

section
variable {s : State} {cs : List (Bool × Cause)}

theorem Checked.of_ite {p : Prop} [Decidable p] {c : Cause} {t : State} (ht : Checked s cs t) :
    Checked s ((decide p, c) :: cs) (if p then t else raise c s) := by
  by_cases hp : p
  · rw [if_pos hp, decide_eq_true hp]
    exact .passed ht
  · rw [if_neg hp, decide_eq_false hp]
    exact .failed

/-- The check of a length against the size of a buffer. -/
theorem Checked.of_ite_lt {m n : Nat} {c : Cause} {t : State} (ht : Checked s cs t) :
    Checked s ((decide (m ≤ n), c) :: cs) (if n < m then raise c s else t) := by
  simpa only [← Nat.not_lt, ite_not] using Checked.of_ite (p := m ≤ n) (c := c) ht

theorem Checked.of_withOperand {α : Type} {o : Option α} {f : α → State} (hf : ∀ v, Checked s cs (f v)) :
    Checked s ((o.isSome, .illegalCommand) :: cs) (withOperand o s f) := by
  cases o with
  | none => exact .failed
  | some v => exact .passed (hf v)

theorem Checked.of_withAddress {a : Field} {n : Nat} {f : Nat → State} (hf : ∀ x, Checked s cs (f x)) :
    Checked s ((decide (a.toNat < n), .badAddress) :: cs) (withAddress a n s f) :=
  .of_ite (hf _)

theorem Checked.of_withLength {f : LengthRow → State} (hf : ∀ r, Checked s cs (f r)) :
    Checked s (((lengthRow s.sel).isSome, .noLength) :: cs) (withLength s f) := by
  unfold withLength
  cases lengthRow s.sel with
  | none => exact .failed
  | some r => exact .passed (hf r)

variable (live : s.err = 0#4)
include live

theorem Checked.of_whenLive {t : State} (ht : Checked s cs t) : Checked s cs (whenLive s t) := by
  rwa [whenLive_of_live live]

theorem Checked.of_whenKo {f : KoState → State} (hf : ∀ k, s.ko = some k → Checked s cs (f k)) :
    Checked s (((s.ko.map (·.kdone)).isSome, .illegalCommand) :: cs) (whenKo s f) := by
  cases hk : s.ko with
  | none => exact whenKo_of_absent live hk f ▸ .failed
  | some k => exact whenKo_of_live live hk f ▸ .passed (hf k hk)

theorem Checked.of_selectRow {row : Option (BitVec 3)} {c : Cause} :
    Checked s [(row.isSome, c)] (selectRow row c s) := by
  cases row with
  | none => exact .failed
  | some v => exact .passed (.completed live)

/-- Performing a command is making its checks. -/
theorem exec_checked {i : Instr} {t : State} (h : exec i s = .next t) : Checked s (s.checks i) t := by
  have completes {u : State} (hu : u.err = s.err) : Checked s [] u := .completed (hu.trans live)
  cases i <;> cases h
  case nop => exact .of_whenLive live (completes rfl)
  case clr => exact .completed rfl
  case rds => exact completes rfl
  case setlen d => exact .of_whenLive live (.of_selectRow live)
  case setwc d => exact .of_whenLive live (.of_selectRow live)
  case lde a d => exact .of_whenLive live (.of_withOperand fun _ => .of_withAddress fun _ => completes rfl)
  case rde a => exact .of_whenLive live (.of_withAddress fun _ => completes rfl)
  case ldh d => exact .of_whenLive live (.of_withOperand fun _ => completes rfl)
  case ldi a d => exact .of_whenLive live (.of_withOperand fun _ => .of_withAddress fun _ => completes rfl)
  case rdi a => exact .of_whenLive live (.of_withAddress fun _ => completes rfl)
  case rdc => exact .of_whenLive live (completes rfl)
  case pack => exact .of_whenLive live (.of_withLength fun _ => completes rfl)
  case unpack => exact .of_whenLive live (.of_withLength fun _ => completes rfl)
  case chk => exact .of_whenLive live (.of_withLength fun _ => completes rfl)
  case ksetp d => exact .of_whenKo live fun _ _ => .of_ite_lt (completes rfl)
  case ksets d => exact .of_whenKo live fun _ _ => .of_ite_lt (completes rfl)
  case kldp a d =>
    exact .of_whenKo live fun _ _ => .of_withOperand fun _ => .of_withAddress fun _ => completes rfl
  case klds a d =>
    exact .of_whenKo live fun _ _ => .of_withOperand fun _ => .of_withAddress fun _ => completes rfl
  case krun => exact .of_whenKo live fun _ _ => completes rfl
  case krds a =>
    refine .of_whenKo live fun k hk => .of_withAddress fun x => ?_
    have hdone : (s.ko.map (·.kdone)).any id = decide (k.kdone = true) := by simp [hk]
    rw [hdone]
    exact .of_ite (completes rfl)

end

/-! ## What follows from the checks -/

section
variable {s t : State} {cs : List (Bool × Cause)} (h : Checked s cs t)
include h

/-- A fault is the cause of one of the checks. -/
theorem Checked.live_or_raise : t.err = 0#4 ∨ ∃ p ∈ cs, t = raise p.2 s := by
  induction h with
  | completed live => exact .inl live
  | passed _ ih => exact ih.imp_right fun ⟨p, hp, ht⟩ => ⟨p, List.mem_cons_of_mem _ hp, ht⟩
  | failed => exact .inr ⟨_, List.mem_cons_self, rfl⟩

theorem Checked.live_of_all (hcs : ∀ p ∈ cs, p.1 = true) : t.err = 0#4 := by
  induction h with
  | completed live => exact live
  | passed _ ih => exact ih fun p hp => hcs p (List.mem_cons_of_mem _ hp)
  | failed => cases hcs _ List.mem_cons_self

/-- The checks alone decide `ERR`. -/
theorem Checked.err_unique {s' t' : State} (h' : Checked s' cs t') : t.err = t'.err := by
  induction h with
  | completed live =>
    cases h' with
    | completed live' => exact live.trans live'.symm
  | passed _ ih =>
    cases h' with
    | passed rest' => exact ih rest'
  | failed =>
    cases h' with
    | failed => rfl

end

/-- The checks of a command raise only causes of its column of R201. -/
theorem causeCode_mem_causeCodes {z : BufferSizes} {sel : BitVec 3} {kdone : Option Bool} {i : Instr} :
    ∀ p ∈ faultChecks z sel kdone i, causeCode p.2 ∈ i.causeCodes := by
  cases i <;> simp [faultChecks, causeCode, Instr.causeCodes]

theorem isSome_selOfLength {d : Field} (hd : d.toNat ∈ [16, 20, 24, 28, 32]) : (selOfLength d).isSome = true := by
  unfold selOfLength lengthOperand
  split <;> simp_all

theorem isSome_selOfWordCount {d : Field} (hd : d.toNat ∈ [12, 15, 18, 21, 24]) :
    (selOfWordCount d).isSome = true := by
  unfold selOfWordCount lengthOperand
  split <;> simp_all

/-- A well-behaved host passes every check (R201, last paragraph). -/
theorem checks_pass_of_inRange {s : State} {i : Instr} (hwf : i.WellFormed) (hrange : i.inRange s)
    (hko : i.isKo = true → s.hasKo = true) : ∀ p ∈ s.checks i, p.1 = true := by
  have byte {d : Field} (hd : d.isByte = true) : (byteOperand d).isSome = true := by simp [byteOperand, hd]
  have index {d : Field} (hd : d.isIndex = true) : (indexOperand d).isSome = true := by simp [indexOperand, hd]
  have ko (hi : i.isKo = true) : (s.ko.map (·.kdone)).isSome = true := Option.isSome_map.trans (hko hi)
  cases i with
  | nop | clr | rds | rdc => exact nofun
  | setlen d => simpa [faultChecks] using isSome_selOfLength hrange
  | setwc d => simpa [faultChecks] using isSome_selOfWordCount hrange
  | lde a d => simpa [faultChecks, Instr.inRange, byte hwf] using hrange
  | rde a => simpa [faultChecks, Instr.inRange] using hrange
  | ldh d => simpa [faultChecks] using byte hwf
  | ldi a d => simpa [faultChecks, Instr.inRange, index hwf] using hrange
  | rdi a => simpa [faultChecks, Instr.inRange] using hrange
  | pack | unpack | chk =>
    obtain ⟨hpos, hle⟩ := hrange
    simp [faultChecks, lengthRow_eq_some hpos hle]
  | ksetp d => simpa [faultChecks, Instr.inRange, ko rfl] using hrange
  | ksets d => simpa [faultChecks, Instr.inRange, ko rfl] using hrange
  | kldp a d => simpa [faultChecks, Instr.inRange, ko rfl, byte hwf] using hrange
  | klds a d => simpa [faultChecks, Instr.inRange, ko rfl, byte hwf] using hrange
  | krun => simpa [faultChecks] using ko rfl
  | krds a => simpa [faultChecks, Instr.inRange, ko rfl, Option.any_map, Function.comp_def] using hrange

/-- Settles O15: a command raises or leaves the block not faulted, and raising writes `ERR` alone. -/
theorem faultChangesOnlyErrAndAnswers : Obligations.FaultChangesOnlyErrAndAnswers := by
  refine ⟨fun _ _ => rfl, rfl, rfl, rfl, rfl, rfl, rfl, rfl, fun i s t live hexec faulted => ?_⟩
  obtain ⟨p, -, rfl⟩ := (exec_checked live hexec).live_or_raise.resolve_left faulted
  rfl

/-- Settles O18: what a command raises is the cause of one of its checks. -/
theorem commandsRaiseOnlyTheirOwnCauses : Obligations.CommandsRaiseOnlyTheirOwnCauses := by
  intro i s t live hexec
  refine (exec_checked live hexec).live_or_raise.imp_right ?_
  rintro ⟨p, hp, rfl⟩
  exact causeCode_mem_causeCodes p hp

/-- Settles O19: the checks of a command see nothing in which the two blocks may differ (`faultChecks`), and in a
faulted block `ERR` stays, except under `CLR`. -/
theorem dataNeverFaults : Obligations.DataNeverFaults := by
  intro i s s' t t' hsel herr hkdone hsizes hexec hexec'
  by_cases live : s.err = 0#4
  · have hchecks : s'.checks i = s.checks i := by rw [State.checks, State.checks, hsel, hkdone, hsizes]
    exact (exec_checked live hexec).err_unique (hchecks ▸ exec_checked (herr ▸ live) hexec')
  · rw [err_of_exec_of_faulted live hexec, err_of_exec_of_faulted (herr ▸ live) hexec', herr]

/-- Settles O20: a command whose checks all pass completes. -/
theorem wellBehavedHostNeverFaults : Obligations.WellBehavedHostNeverFaults := by
  intro i s live hwf hrange hko
  obtain ⟨t, ht⟩ := exec_answers_next i s
  exact ⟨t, ht, (exec_checked live ht).live_of_all (checks_pass_of_inRange hwf hrange hko)⟩

end Sys2Proof.Machine

/-! SUPPORT. Decoding and encoding are inverse (30_encoding.md R80 to R90); `kdf` of the two toy keyed hashes of
95_test_vectors.md section 6; commands whose operand does not fit (R83); what a step does with a word and with the reset
input (R90, R202 to R204, R220). -/

namespace Sys2Proof.Machine

/-! ## The decoder and the encoder -/

/-- Settles O2: the fields of the encoded word are the command's own (`decode_encode`). -/
theorem decodeOfEncodeIsTheCommand : Obligations.DecodeOfEncodeIsTheCommand := fun _ => decode_encode

/-- Settles O3: a word is its three fields, and the decoder checks those that carry no operand
(`wellFormed_and_encode_of_decode`). -/
theorem encodeOfDecodeIsTheWord : Obligations.EncodeOfDecodeIsTheWord := fun _ _ hd =>
  (wellFormed_and_encode_of_decode hd).symm

/-- Settles O1: the decoder evaluated on the twenty-four words. -/
theorem decodeReadsTheExampleWords : Obligations.DecodeReadsTheExampleWords := by
  unfold Obligations.DecodeReadsTheExampleWords
  decide

/-! ## `kdf` of the toy keyed hashes -/

theorem xorBlocks_self (x : Block) : xorBlocks x x = Vector.replicate 64 0#8 := by
  ext
  simp [xorBlocks]

theorem xorBlocks_xorBlocks_cancel (x y : Block) : xorBlocks (xorBlocks x y) y = x := by
  ext
  simp [xorBlocks]

theorem xorBlocks_replicate (x y : Byte) :
    xorBlocks (Vector.replicate 64 x) (Vector.replicate 64 y) = Vector.replicate 64 (x ^^^ y) := by
  ext
  simp [xorBlocks]

section
variable {prf : List Byte → List Byte → Block} {P : List Byte} {v : Block} (hprf : ∀ U : Block, prf P U.toList = v)
  (S : List Byte)
include hprf

/-- Where the PRF answers one block to every later round, two rounds cancel (R164). -/
theorem kdfRounds_snd_odd (n : Nat) :
    (kdfRounds prf P S (2 * n + 1)).2 = xorBlocks (prf P (S ++ blockNumberOne)) v := by
  induction n with
  | zero => rw [kdfRounds, kdfRounds, hprf]
  | succ n ih => rw [Nat.mul_succ, kdfRounds, kdfRounds, hprf, hprf, ih, xorBlocks_xorBlocks_cancel]

/-- Of the 2047 rounds after the first one remains, since their number is odd. -/
theorem kdf_of_const_rounds : kdf prf P S = xorBlocks (prf P (S ++ blockNumberOne)) v := by
  rw [kdf, show Config.krounds - 1 = 2 * 1023 + 1 from rfl, kdfRounds_snd_odd hprf]

end

/-- Settles O58: both keyed hashes answer every round after the first alike, because `U` has 64 bytes, so `kdf` is the
exclusive-or of their first two answers (`kdf_of_const_rounds`). -/
theorem kdfOfToyKeyedHashes : Obligations.KdfOfToyKeyedHashes := by
  refine fun P S => ⟨fun c => ?constant, ?lengths⟩
  case constant => rw [kdf_of_const_rounds (fun _ => rfl), xorBlocks_self]
  case lengths =>
    rw [kdf_of_const_rounds (fun U => by rw [Vector.length_toList]), xorBlocks_replicate, List.length_append,
      ← Nat.add_assoc, show blockNumberOne.length = 4 from rfl]

/-! ## Commands whose operand does not fit -/

/-- Settles O5: the commands with a byte or an index operand check it before the address (R202), and the KO commands
among them raise the same cause without the KO; every other command is well-formed. -/
theorem illFormedOperandRaisesIllegalCommand : Obligations.IllFormedOperandRaisesIllegalCommand := by
  intro i s hi live
  cases i with
  | lde _ d | ldh d =>
    exact congrArg _ (whenLive_withOperand_of_none live (byteOperand_of_not_isByte (Bool.eq_false_iff.mpr hi)) _)
  | ldi _ d =>
    exact congrArg _ (whenLive_withOperand_of_none live (indexOperand_of_not_isIndex (Bool.eq_false_iff.mpr hi)) _)
  | kldp | klds => exact congrArg _ (whenKo_load_of_illegal live (.inr (mt isByte_iff.mpr hi)))
  | nop | clr | rds | setlen | setwc | rde | rdi | rdc | pack | unpack | chk | ksetp | ksets | krun | krds =>
    exact absurd rfl hi

/-! ## One step -/

/-- Settles O9: the step on a word that is a command (`step_of_command`). -/
theorem stepRunsTheDecodedCommand : Obligations.StepRunsTheDecodedCommand := fun _ _ _ _ => step_of_command

/-- Settles O10: such a word is `illegalWord`, which raises where the block is not faulted. -/
theorem stepOnAnIllegalWord : Obligations.StepOnAnIllegalWord := fun s _ rest _ hin hd =>
  ⟨fun live => (step_of_illegal hin hd).trans (congrArg _ (whenLive_of_live (s := s.setInput rest) live _)),
    fun faulted => (step_of_illegal hin hd).trans (congrArg _ (whenLive_of_faulted (s := s.setInput rest) faulted _))⟩

/-- Settles O11: the reset input leaves `BlockState.reset`, and so does power-on. -/
theorem resetInputClearsTheBlock : Obligations.ResetInputClearsTheBlock := ⟨fun _ _ => step_of_reset, rfl⟩

end Sys2Proof.Machine
